-- ==== Sys2Proof/Word.lean ====
section
/-! DEFINITION. The word types of the core (00_scope.md R8, 30_encoding.md R54). -/

namespace Sys2Proof

/-- The data width of every access is 8 bits (R8). -/
abbrev Byte := BitVec 8

/-- A transaction word (R54). -/
abbrev Word := BitVec 32

/-- An address of the processor window or of the cartridge bus (R37). -/
abbrev Addr := BitVec 16

/-- An address of the PPU bus (R40). -/
abbrev BusAddr := BitVec 14

end Sys2Proof
end

