-- ==== Sys2Proof/Syntax.lean ====
section
/-! DEFINITION. The operations of the core: one constructor per row of opcode_table.json (30_encoding.md R54 to R58).
An operand is the part of the word the row leaves free: the mirror index `k = A[12:3]` of a window register, the offset
inside the row's address range, or the whole address of a catch-all row; `d` is the data byte. -/

namespace Sys2Proof

/-- The variant identifiers of a constructed mapper (R72): 0, 1, 2, 3. -/
inductive Variant where
  | nrom
  | mmc1
  | uxrom
  | cnrom
deriving DecidableEq, Repr

/-- Why a transaction word names no operation: it spells none (R60), or it is a cartridge word and no mapper is there to
say which row it is (R58, R157). -/
inductive Rejection where
  | badWord
  | noCartridge
deriving DecidableEq, Repr

inductive Instr where
  -- WIN, the register window (R97 to R117)
  | ppuctrlR (k : BitVec 10)
  | ppuctrlP (k : BitVec 10)
  | ppuctrlW (k : BitVec 10) (d : Byte)
  | ppumaskR (k : BitVec 10)
  | ppumaskP (k : BitVec 10)
  | ppumaskW (k : BitVec 10) (d : Byte)
  | ppustatusR (k : BitVec 10)
  | ppustatusP (k : BitVec 10)
  | ppustatusW (k : BitVec 10) (d : Byte)
  | oamaddrR (k : BitVec 10)
  | oamaddrP (k : BitVec 10)
  | oamaddrW (k : BitVec 10) (d : Byte)
  | oamdataR (k : BitVec 10)
  | oamdataP (k : BitVec 10)
  | oamdataW (k : BitVec 10) (d : Byte)
  | ppuscrollR (k : BitVec 10)
  | ppuscrollP (k : BitVec 10)
  | ppuscrollW (k : BitVec 10) (d : Byte)
  | ppuaddrR (k : BitVec 10)
  | ppuaddrP (k : BitVec 10)
  | ppuaddrW (k : BitVec 10) (d : Byte)
  | ppudataR (k : BitVec 10)
  | ppudataP (k : BitVec 10)
  | ppudataW (k : BitVec 10) (d : Byte)
  | oamdmaR
  | oamdmaP
  | oamdmaW (d : Byte)
  | winOutsideR (a : Addr)
  | winOutsideP (a : Addr)
  | winOutsideW (a : Addr) (d : Byte)
  -- CART, variant 0 (R76 to R79, R69)
  | nromChrR (o : BitVec 13)
  | nromChrW (o : BitVec 13) (d : Byte)
  | nromPrgR (o : BitVec 15)
  | nromPrgW (o : BitVec 15) (d : Byte)
  | nromPeek (a : Addr)
  | nromUnmappedR (a : Addr)
  | nromUnmappedW (a : Addr) (d : Byte)
  -- CART, variant 1 (R81 to R86, R69)
  | mmc1PrgramR (o : BitVec 13)
  | mmc1PrgramW (o : BitVec 13) (d : Byte)
  | mmc1WCtrl (o : BitVec 13) (d : Byte)
  | mmc1WChr0 (o : BitVec 13) (d : Byte)
  | mmc1WChr1 (o : BitVec 13) (d : Byte)
  | mmc1WPrg (o : BitVec 13) (d : Byte)
  | mmc1PrgLoR (o : BitVec 14)
  | mmc1PrgHiR (o : BitVec 14)
  | mmc1ChrLoR (o : BitVec 12)
  | mmc1ChrHiR (o : BitVec 12)
  | mmc1ChrW (o : BitVec 13) (d : Byte)
  | mmc1Peek (a : Addr)
  | mmc1UnmappedR (a : Addr)
  | mmc1UnmappedW (a : Addr) (d : Byte)
  -- CART, variant 2 (R88 to R90, R69)
  | uxromWBank (o : BitVec 15) (d : Byte)
  | uxromPrgLoR (o : BitVec 14)
  | uxromPrgHiR (o : BitVec 14)
  | uxromChrR (o : BitVec 13)
  | uxromChrW (o : BitVec 13) (d : Byte)
  | uxromPeek (a : Addr)
  | uxromUnmappedR (a : Addr)
  | uxromUnmappedW (a : Addr) (d : Byte)
  -- CART, variant 3 (R92 to R95, R69)
  | cnromWBank (o : BitVec 15) (d : Byte)
  | cnromChrR (o : BitVec 13)
  | cnromChrW (o : BitVec 13) (d : Byte)
  | cnromPrgR (o : BitVec 15)
  | cnromPeek (a : Addr)
  | cnromUnmappedR (a : Addr)
  | cnromUnmappedW (a : Addr) (d : Byte)
  -- PBUS (R41)
  | pbusPtR (o : BitVec 13)
  | pbusPalR (o : BitVec 8)
  | pbusNtR (o : BitVec 13)
  | pbusPtW (o : BitVec 13) (d : Byte)
  | pbusPalW (o : BitVec 8) (d : Byte)
  | pbusNtW (o : BitVec 13) (d : Byte)
  | pbusPtP (o : BitVec 13)
  | pbusPalP (o : BitVec 8)
  | pbusNtP (o : BitVec 13)
  -- PPU lifecycle and queries (R118 to R120, R174, R175)
  | ppuTick
  | ppuPowerCycle
  | ppuReset
  | ppuFramebuffer
  | ppuFrameCount
  -- MAP lifecycle and queries (R66, R67, R173)
  | mapFactory (id : Byte)
  | mapTick
  | mapMirroring
deriving DecidableEq, Repr

end Sys2Proof
end

