-- ==== Sys2Proof/WellFormed.lean ====
section
/-! DEFINITION. Which operands a row admits. Most rows admit every value of their operand; the catch-all rows and the
nametable rows stand after more specific rows, so they hold only the addresses those leave (R58). -/

namespace Sys2Proof

/-- The window of R38: $2000-$3FFF (`a[15:13] = %001`) and $4014. -/
def inWindow (a : Addr) : Bool := a.extractLsb' 13 3 == 1#3 || a == 0x4014#16

/-- The addresses some range of the variant holds (R39): the graphics window, the program windows, and variant 1's
PRG-RAM. -/
def Variant.maps (v : Variant) (a : Addr) : Bool :=
  a.extractLsb' 13 3 == 0#3 || a.extractLsb' 15 1 == 1#1 || (v == .mmc1 && a.extractLsb' 13 3 == 3#3)

/-- The operands are ones the row admits. -/
def Instr.wf : Instr → Bool
  | .winOutsideR a | .winOutsideP a | .winOutsideW a _ => !inWindow a
  | .nromUnmappedR a | .nromUnmappedW a _ => !Variant.nrom.maps a
  | .mmc1UnmappedR a | .mmc1UnmappedW a _ => !Variant.mmc1.maps a
  | .uxromUnmappedR a | .uxromUnmappedW a _ => !Variant.uxrom.maps a
  | .cnromUnmappedR a | .cnromUnmappedW a _ => !Variant.cnrom.maps a
  -- $3F00-$3FFF are the palette rows'
  | .pbusNtR o | .pbusNtW o _ | .pbusNtP o => !(o.extractLsb' 8 5 == 0x1F#5)
  | .ppuctrlR _ | .ppuctrlP _ | .ppuctrlW _ _ | .ppumaskR _ | .ppumaskP _ | .ppumaskW _ _ => true
  | .ppustatusR _ | .ppustatusP _ | .ppustatusW _ _ | .oamaddrR _ | .oamaddrP _ | .oamaddrW _ _ => true
  | .oamdataR _ | .oamdataP _ | .oamdataW _ _ | .ppuscrollR _ | .ppuscrollP _ | .ppuscrollW _ _ => true
  | .ppuaddrR _ | .ppuaddrP _ | .ppuaddrW _ _ | .ppudataR _ | .ppudataP _ | .ppudataW _ _ => true
  | .oamdmaR | .oamdmaP | .oamdmaW _ => true
  | .nromChrR _ | .nromChrW _ _ | .nromPrgR _ | .nromPrgW _ _ | .nromPeek _ => true
  | .mmc1PrgramR _ | .mmc1PrgramW _ _ | .mmc1WCtrl _ _ | .mmc1WChr0 _ _ | .mmc1WChr1 _ _ | .mmc1WPrg _ _ => true
  | .mmc1PrgLoR _ | .mmc1PrgHiR _ | .mmc1ChrLoR _ | .mmc1ChrHiR _ | .mmc1ChrW _ _ | .mmc1Peek _ => true
  | .uxromWBank _ _ | .uxromPrgLoR _ | .uxromPrgHiR _ | .uxromChrR _ | .uxromChrW _ _ | .uxromPeek _ => true
  | .cnromWBank _ _ | .cnromChrR _ | .cnromChrW _ _ | .cnromPrgR _ | .cnromPeek _ => true
  | .pbusPtR _ | .pbusPalR _ | .pbusPtW _ _ | .pbusPalW _ _ | .pbusPtP _ | .pbusPalP _ => true
  | .ppuTick | .ppuPowerCycle | .ppuReset | .ppuFramebuffer | .ppuFrameCount => true
  | .mapFactory _ | .mapTick | .mapMirroring => true

/-- The variant a cartridge row belongs to (the `variant` field of its row); none for every other row (R58). -/
def Instr.variant? : Instr → Option Variant
  | .nromChrR _ | .nromChrW _ _ | .nromPrgR _ | .nromPrgW _ _ | .nromPeek _ | .nromUnmappedR _ | .nromUnmappedW _ _ =>
    some .nrom
  | .mmc1PrgramR _ | .mmc1PrgramW _ _ | .mmc1WCtrl _ _ | .mmc1WChr0 _ _ | .mmc1WChr1 _ _ | .mmc1WPrg _ _
  | .mmc1PrgLoR _ | .mmc1PrgHiR _ | .mmc1ChrLoR _ | .mmc1ChrHiR _ | .mmc1ChrW _ _ | .mmc1Peek _ | .mmc1UnmappedR _
  | .mmc1UnmappedW _ _ => some .mmc1
  | .uxromWBank _ _ | .uxromPrgLoR _ | .uxromPrgHiR _ | .uxromChrR _ | .uxromChrW _ _ | .uxromPeek _
  | .uxromUnmappedR _ | .uxromUnmappedW _ _ => some .uxrom
  | .cnromWBank _ _ | .cnromChrR _ | .cnromChrW _ _ | .cnromPrgR _ | .cnromPeek _ | .cnromUnmappedR _
  | .cnromUnmappedW _ _ => some .cnrom
  | .ppuctrlR _ | .ppuctrlP _ | .ppuctrlW _ _ | .ppumaskR _ | .ppumaskP _ | .ppumaskW _ _ => none
  | .ppustatusR _ | .ppustatusP _ | .ppustatusW _ _ | .oamaddrR _ | .oamaddrP _ | .oamaddrW _ _ => none
  | .oamdataR _ | .oamdataP _ | .oamdataW _ _ | .ppuscrollR _ | .ppuscrollP _ | .ppuscrollW _ _ => none
  | .ppuaddrR _ | .ppuaddrP _ | .ppuaddrW _ _ | .ppudataR _ | .ppudataP _ | .ppudataW _ _ => none
  | .oamdmaR | .oamdmaP | .oamdmaW _ | .winOutsideR _ | .winOutsideP _ | .winOutsideW _ _ => none
  | .pbusPtR _ | .pbusPalR _ | .pbusNtR _ | .pbusPtW _ _ | .pbusPalW _ _ | .pbusNtW _ _ => none
  | .pbusPtP _ | .pbusPalP _ | .pbusNtP _ => none
  | .ppuTick | .ppuPowerCycle | .ppuReset | .ppuFramebuffer | .ppuFrameCount => none
  | .mapFactory _ | .mapTick | .mapMirroring => none

/-- With `slot` in the mapper slot (none: empty) the row can be selected: it names no variant, or the slot's (R58). -/
abbrev Instr.rowIn (slot : Option Variant) (i : Instr) : Prop := i.variant? = none ∨ i.variant? = slot

end Sys2Proof
end

