-- ==== Sys2Proof/Decode.lean ====
section
/-! DEFINITION. From a transaction word to an operation and back (30_encoding.md), and the opcode table as data. -/

namespace Sys2Proof

/-! ## The fields of a word (R54) -/

/-- `T`, bits 31:28. -/
def tField (w : Word) : BitVec 4 := w.extractLsb' 28 4
/-- `O`, bits 27:24. -/
def oField (w : Word) : BitVec 4 := w.extractLsb' 24 4
/-- `A`, bits 23:8. -/
def aField (w : Word) : Addr := w.extractLsb' 8 16
/-- `D`, bits 7:0. -/
def dField (w : Word) : Byte := w.extractLsb' 0 8

/-- The word of four fields (R54). -/
def mkWord (t o : BitVec 4) (a : Addr) (d : Byte) : Word := t ++ o ++ a ++ d

/-! ## Addresses built from a row's operand -/

/-- The address of register `r` of the window at mirror `k`: $2000 + 8k + r (R38). -/
def winAddr (r : BitVec 3) (k : BitVec 10) : Addr := 1#3 ++ k ++ r
/-- The DMA port (R38). -/
def dmaAddr : Addr := 0x4014#16
/-- $0000-$1FFF. -/
def chrAddr (o : BitVec 13) : Addr := 0#3 ++ o
/-- $0000-$0FFF. -/
def chrLoAddr (o : BitVec 12) : Addr := 0#4 ++ o
/-- $1000-$1FFF. -/
def chrHiAddr (o : BitVec 12) : Addr := 1#4 ++ o
/-- $6000-$7FFF. -/
def prgRamAddr (o : BitVec 13) : Addr := 3#3 ++ o
/-- $8000-$FFFF. -/
def prgAddr (o : BitVec 15) : Addr := 1#1 ++ o
/-- $8000-$BFFF. -/
def prgLoAddr (o : BitVec 14) : Addr := 2#2 ++ o
/-- $C000-$FFFF. -/
def prgHiAddr (o : BitVec 14) : Addr := 3#2 ++ o
/-- The quarter `sel = a[14:13]` of $8000-$FFFF, one per MMC1 register (R83). -/
def serialAddr (sel : BitVec 2) (o : BitVec 13) : Addr := 1#1 ++ sel ++ o
/-- PPU bus $0000-$1FFF. -/
def ptBusAddr (o : BitVec 13) : BusAddr := 0#1 ++ o
/-- PPU bus $2000-$3FFF. -/
def ntBusAddr (o : BitVec 13) : BusAddr := 1#1 ++ o
/-- PPU bus $3F00-$3FFF. -/
def palBusAddr (o : BitVec 8) : BusAddr := 0x3F#6 ++ o
/-- `A` of a PPU bus word: `A[15:14]` is 0 (R55). -/
def busWordAddr (a : BusAddr) : Addr := 0#2 ++ a

/-! ## Decoding -/

/-- A `WIN` read (R56, R97). -/
def decodeWinR (a : Addr) : Instr :=
  if a.extractLsb' 13 3 = 1#3 then
    let k := a.extractLsb' 3 10
    match a.extractLsb' 0 3 with
    | 0#3 => .ppuctrlR k
    | 1#3 => .ppumaskR k
    | 2#3 => .ppustatusR k
    | 3#3 => .oamaddrR k
    | 4#3 => .oamdataR k
    | 5#3 => .ppuscrollR k
    | 6#3 => .ppuaddrR k
    | _ => .ppudataR k
  else if a = dmaAddr then .oamdmaR else .winOutsideR a

/-- A `WIN` peek (R56, R97). -/
def decodeWinP (a : Addr) : Instr :=
  if a.extractLsb' 13 3 = 1#3 then
    let k := a.extractLsb' 3 10
    match a.extractLsb' 0 3 with
    | 0#3 => .ppuctrlP k
    | 1#3 => .ppumaskP k
    | 2#3 => .ppustatusP k
    | 3#3 => .oamaddrP k
    | 4#3 => .oamdataP k
    | 5#3 => .ppuscrollP k
    | 6#3 => .ppuaddrP k
    | _ => .ppudataP k
  else if a = dmaAddr then .oamdmaP else .winOutsideP a

/-- A `WIN` write (R56, R97). -/
def decodeWinW (a : Addr) (d : Byte) : Instr :=
  if a.extractLsb' 13 3 = 1#3 then
    let k := a.extractLsb' 3 10
    match a.extractLsb' 0 3 with
    | 0#3 => .ppuctrlW k d
    | 1#3 => .ppumaskW k d
    | 2#3 => .ppustatusW k d
    | 3#3 => .oamaddrW k d
    | 4#3 => .oamdataW k d
    | 5#3 => .ppuscrollW k d
    | 6#3 => .ppuaddrW k d
    | _ => .ppudataW k d
  else if a = dmaAddr then .oamdmaW d else .winOutsideW a d

/-- A `CART` read for the variant in the slot (R56, R39). -/
def decodeCartR (v : Variant) (a : Addr) : Instr :=
  match v with
  | .nrom =>
    if a.extractLsb' 13 3 = 0#3 then .nromChrR (a.extractLsb' 0 13)
    else if a.extractLsb' 15 1 = 1#1 then .nromPrgR (a.extractLsb' 0 15)
    else .nromUnmappedR a
  | .mmc1 =>
    if a.extractLsb' 13 3 = 0#3 then
      if a.extractLsb' 12 1 = 0#1 then .mmc1ChrLoR (a.extractLsb' 0 12) else .mmc1ChrHiR (a.extractLsb' 0 12)
    else if a.extractLsb' 15 1 = 1#1 then
      if a.extractLsb' 14 1 = 0#1 then .mmc1PrgLoR (a.extractLsb' 0 14) else .mmc1PrgHiR (a.extractLsb' 0 14)
    else if a.extractLsb' 13 3 = 3#3 then .mmc1PrgramR (a.extractLsb' 0 13)
    else .mmc1UnmappedR a
  | .uxrom =>
    if a.extractLsb' 13 3 = 0#3 then .uxromChrR (a.extractLsb' 0 13)
    else if a.extractLsb' 15 1 = 1#1 then
      if a.extractLsb' 14 1 = 0#1 then .uxromPrgLoR (a.extractLsb' 0 14) else .uxromPrgHiR (a.extractLsb' 0 14)
    else .uxromUnmappedR a
  | .cnrom =>
    if a.extractLsb' 13 3 = 0#3 then .cnromChrR (a.extractLsb' 0 13)
    else if a.extractLsb' 15 1 = 1#1 then .cnromPrgR (a.extractLsb' 0 15)
    else .cnromUnmappedR a

/-- A `CART` peek: one row per variant, every address. -/
def decodeCartP (v : Variant) (a : Addr) : Instr :=
  match v with
  | .nrom => .nromPeek a
  | .mmc1 => .mmc1Peek a
  | .uxrom => .uxromPeek a
  | .cnrom => .cnromPeek a

/-- A `CART` write for the variant in the slot (R56, R39). -/
def decodeCartW (v : Variant) (a : Addr) (d : Byte) : Instr :=
  match v with
  | .nrom =>
    if a.extractLsb' 13 3 = 0#3 then .nromChrW (a.extractLsb' 0 13) d
    else if a.extractLsb' 15 1 = 1#1 then .nromPrgW (a.extractLsb' 0 15) d
    else .nromUnmappedW a d
  | .mmc1 =>
    if a.extractLsb' 13 3 = 0#3 then .mmc1ChrW (a.extractLsb' 0 13) d
    else if a.extractLsb' 15 1 = 1#1 then
      match a.extractLsb' 13 2 with
      | 0#2 => .mmc1WCtrl (a.extractLsb' 0 13) d
      | 1#2 => .mmc1WChr0 (a.extractLsb' 0 13) d
      | 2#2 => .mmc1WChr1 (a.extractLsb' 0 13) d
      | _ => .mmc1WPrg (a.extractLsb' 0 13) d
    else if a.extractLsb' 13 3 = 3#3 then .mmc1PrgramW (a.extractLsb' 0 13) d
    else .mmc1UnmappedW a d
  | .uxrom =>
    if a.extractLsb' 13 3 = 0#3 then .uxromChrW (a.extractLsb' 0 13) d
    else if a.extractLsb' 15 1 = 1#1 then .uxromWBank (a.extractLsb' 0 15) d
    else .uxromUnmappedW a d
  | .cnrom =>
    if a.extractLsb' 13 3 = 0#3 then .cnromChrW (a.extractLsb' 0 13) d
    else if a.extractLsb' 15 1 = 1#1 then .cnromWBank (a.extractLsb' 0 15) d
    else .cnromUnmappedW a d

/-- A `PBUS` read of a 14-bit address (R41; palette before nametable, R58). -/
def decodeBusR (a : BusAddr) : Instr :=
  if a.extractLsb' 13 1 = 0#1 then .pbusPtR (a.extractLsb' 0 13)
  else if a.extractLsb' 8 5 = 0x1F#5 then .pbusPalR (a.extractLsb' 0 8)
  else .pbusNtR (a.extractLsb' 0 13)

/-- A `PBUS` peek. -/
def decodeBusP (a : BusAddr) : Instr :=
  if a.extractLsb' 13 1 = 0#1 then .pbusPtP (a.extractLsb' 0 13)
  else if a.extractLsb' 8 5 = 0x1F#5 then .pbusPalP (a.extractLsb' 0 8)
  else .pbusNtP (a.extractLsb' 0 13)

/-- A `PBUS` write. -/
def decodeBusW (a : BusAddr) (d : Byte) : Instr :=
  if a.extractLsb' 13 1 = 0#1 then .pbusPtW (a.extractLsb' 0 13) d
  else if a.extractLsb' 8 5 = 0x1F#5 then .pbusPalW (a.extractLsb' 0 8) d
  else .pbusNtW (a.extractLsb' 0 13) d

/-- The row a legal cartridge word selects: the variant in the slot decides (R56, R58); an empty slot has none, and that
check comes after the `BadWord` check (R157). -/
def onSlot (slot : Option Variant) (f : Variant → Instr) : Except Rejection Instr :=
  match slot with
  | none => .error .noCartridge
  | some v => .ok (f v)

/-- An unused field must be 0 (R55). -/
def whenZero {n : Nat} (unused : BitVec n) (r : Except Rejection Instr) : Except Rejection Instr :=
  if unused = 0#n then r else .error .badWord

/-- The operation of a word's fields (R54, R55, R60). -/
def decodeFields (slot : Option Variant) (t o : BitVec 4) (a : Addr) (d : Byte) : Except Rejection Instr :=
  match t with
  | 0#4 =>
    match o with
    | 0#4 => whenZero d (.ok (decodeWinR a))
    | 1#4 => .ok (decodeWinW a d)
    | 2#4 => whenZero d (.ok (decodeWinP a))
    | _ => .error .badWord
  | 1#4 =>
    match o with
    | 0#4 => whenZero d (onSlot slot (fun v => decodeCartR v a))
    | 1#4 => onSlot slot (fun v => decodeCartW v a d)
    | 2#4 => whenZero d (onSlot slot (fun v => decodeCartP v a))
    | _ => .error .badWord
  | 2#4 =>
    match o with
    | 0#4 => whenZero d (whenZero (a.extractLsb' 14 2) (.ok (decodeBusR (a.extractLsb' 0 14))))
    | 1#4 => whenZero (a.extractLsb' 14 2) (.ok (decodeBusW (a.extractLsb' 0 14) d))
    | 2#4 => whenZero d (whenZero (a.extractLsb' 14 2) (.ok (decodeBusP (a.extractLsb' 0 14))))
    | _ => .error .badWord
  | 3#4 =>
    match o with
    | 3#4 => whenZero d (whenZero a (.ok .ppuTick))
    | 4#4 => whenZero d (whenZero a (.ok .ppuPowerCycle))
    | 5#4 => whenZero d (whenZero a (.ok .ppuReset))
    | 7#4 => whenZero d (whenZero a (.ok .ppuFramebuffer))
    | 8#4 => whenZero d (whenZero a (.ok .ppuFrameCount))
    | _ => .error .badWord
  | 4#4 =>
    match o with
    | 3#4 => whenZero d (whenZero a (.ok .mapTick))
    | 6#4 => whenZero d (whenZero a (.ok .mapMirroring))
    | 9#4 => whenZero a (.ok (.mapFactory d))
    | _ => .error .badWord
  | _ => .error .badWord

/-- The operation a transaction word names, with a mapper of variant `slot` (none: no mapper) in the slot. -/
def decode (slot : Option Variant) (w : Word) : Except Rejection Instr :=
  decodeFields slot (tField w) (oField w) (aField w) (dField w)

/-- The variant a word is read against where no state says which mapper is in the slot. DESIGN CHOICE, safe: the
transaction word of a cartridge row does not name its variant (log 9). -/
def tableVariant : Variant := .mmc1

/-- The decoder's answer on the low `nbits` bits of `w`. -/
def decodeTableWord (nbits w : Nat) : Option Instr :=
  let n := w % 2 ^ nbits
  if n < 2 ^ 32 then
    match decode (some tableVariant) (BitVec.ofNat 32 n) with
    | .ok i => some i
    | .error _ => none
  else none

/-! ## Encoding -/

def winWord (o : BitVec 4) (r : BitVec 3) (k : BitVec 10) (d : Byte) : Word := mkWord 0#4 o (winAddr r k) d
def cartWord (o : BitVec 4) (a : Addr) (d : Byte) : Word := mkWord 1#4 o a d
def busWord (o : BitVec 4) (a : BusAddr) (d : Byte) : Word := mkWord 2#4 o (busWordAddr a) d

/-- The word of an operation (R54, R55, R58). -/
def encode : Instr → Word
  | .ppuctrlR k => winWord 0#4 0#3 k 0#8
  | .ppuctrlP k => winWord 2#4 0#3 k 0#8
  | .ppuctrlW k d => winWord 1#4 0#3 k d
  | .ppumaskR k => winWord 0#4 1#3 k 0#8
  | .ppumaskP k => winWord 2#4 1#3 k 0#8
  | .ppumaskW k d => winWord 1#4 1#3 k d
  | .ppustatusR k => winWord 0#4 2#3 k 0#8
  | .ppustatusP k => winWord 2#4 2#3 k 0#8
  | .ppustatusW k d => winWord 1#4 2#3 k d
  | .oamaddrR k => winWord 0#4 3#3 k 0#8
  | .oamaddrP k => winWord 2#4 3#3 k 0#8
  | .oamaddrW k d => winWord 1#4 3#3 k d
  | .oamdataR k => winWord 0#4 4#3 k 0#8
  | .oamdataP k => winWord 2#4 4#3 k 0#8
  | .oamdataW k d => winWord 1#4 4#3 k d
  | .ppuscrollR k => winWord 0#4 5#3 k 0#8
  | .ppuscrollP k => winWord 2#4 5#3 k 0#8
  | .ppuscrollW k d => winWord 1#4 5#3 k d
  | .ppuaddrR k => winWord 0#4 6#3 k 0#8
  | .ppuaddrP k => winWord 2#4 6#3 k 0#8
  | .ppuaddrW k d => winWord 1#4 6#3 k d
  | .ppudataR k => winWord 0#4 7#3 k 0#8
  | .ppudataP k => winWord 2#4 7#3 k 0#8
  | .ppudataW k d => winWord 1#4 7#3 k d
  | .oamdmaR => mkWord 0#4 0#4 dmaAddr 0#8
  | .oamdmaP => mkWord 0#4 2#4 dmaAddr 0#8
  | .oamdmaW d => mkWord 0#4 1#4 dmaAddr d
  | .winOutsideR a => mkWord 0#4 0#4 a 0#8
  | .winOutsideP a => mkWord 0#4 2#4 a 0#8
  | .winOutsideW a d => mkWord 0#4 1#4 a d
  | .nromChrR o => cartWord 0#4 (chrAddr o) 0#8
  | .nromChrW o d => cartWord 1#4 (chrAddr o) d
  | .nromPrgR o => cartWord 0#4 (prgAddr o) 0#8
  | .nromPrgW o d => cartWord 1#4 (prgAddr o) d
  | .nromPeek a => cartWord 2#4 a 0#8
  | .nromUnmappedR a => cartWord 0#4 a 0#8
  | .nromUnmappedW a d => cartWord 1#4 a d
  | .mmc1PrgramR o => cartWord 0#4 (prgRamAddr o) 0#8
  | .mmc1PrgramW o d => cartWord 1#4 (prgRamAddr o) d
  | .mmc1WCtrl o d => cartWord 1#4 (serialAddr 0#2 o) d
  | .mmc1WChr0 o d => cartWord 1#4 (serialAddr 1#2 o) d
  | .mmc1WChr1 o d => cartWord 1#4 (serialAddr 2#2 o) d
  | .mmc1WPrg o d => cartWord 1#4 (serialAddr 3#2 o) d
  | .mmc1PrgLoR o => cartWord 0#4 (prgLoAddr o) 0#8
  | .mmc1PrgHiR o => cartWord 0#4 (prgHiAddr o) 0#8
  | .mmc1ChrLoR o => cartWord 0#4 (chrLoAddr o) 0#8
  | .mmc1ChrHiR o => cartWord 0#4 (chrHiAddr o) 0#8
  | .mmc1ChrW o d => cartWord 1#4 (chrAddr o) d
  | .mmc1Peek a => cartWord 2#4 a 0#8
  | .mmc1UnmappedR a => cartWord 0#4 a 0#8
  | .mmc1UnmappedW a d => cartWord 1#4 a d
  | .uxromWBank o d => cartWord 1#4 (prgAddr o) d
  | .uxromPrgLoR o => cartWord 0#4 (prgLoAddr o) 0#8
  | .uxromPrgHiR o => cartWord 0#4 (prgHiAddr o) 0#8
  | .uxromChrR o => cartWord 0#4 (chrAddr o) 0#8
  | .uxromChrW o d => cartWord 1#4 (chrAddr o) d
  | .uxromPeek a => cartWord 2#4 a 0#8
  | .uxromUnmappedR a => cartWord 0#4 a 0#8
  | .uxromUnmappedW a d => cartWord 1#4 a d
  | .cnromWBank o d => cartWord 1#4 (prgAddr o) d
  | .cnromChrR o => cartWord 0#4 (chrAddr o) 0#8
  | .cnromChrW o d => cartWord 1#4 (chrAddr o) d
  | .cnromPrgR o => cartWord 0#4 (prgAddr o) 0#8
  | .cnromPeek a => cartWord 2#4 a 0#8
  | .cnromUnmappedR a => cartWord 0#4 a 0#8
  | .cnromUnmappedW a d => cartWord 1#4 a d
  | .pbusPtR o => busWord 0#4 (ptBusAddr o) 0#8
  | .pbusPalR o => busWord 0#4 (palBusAddr o) 0#8
  | .pbusNtR o => busWord 0#4 (ntBusAddr o) 0#8
  | .pbusPtW o d => busWord 1#4 (ptBusAddr o) d
  | .pbusPalW o d => busWord 1#4 (palBusAddr o) d
  | .pbusNtW o d => busWord 1#4 (ntBusAddr o) d
  | .pbusPtP o => busWord 2#4 (ptBusAddr o) 0#8
  | .pbusPalP o => busWord 2#4 (palBusAddr o) 0#8
  | .pbusNtP o => busWord 2#4 (ntBusAddr o) 0#8
  | .ppuTick => mkWord 3#4 3#4 0#16 0#8
  | .ppuPowerCycle => mkWord 3#4 4#4 0#16 0#8
  | .ppuReset => mkWord 3#4 5#4 0#16 0#8
  | .ppuFramebuffer => mkWord 3#4 7#4 0#16 0#8
  | .ppuFrameCount => mkWord 3#4 8#4 0#16 0#8
  | .mapFactory id => mkWord 4#4 9#4 0#16 id
  | .mapTick => mkWord 4#4 3#4 0#16 0#8
  | .mapMirroring => mkWord 4#4 6#4 0#16 0#8

/-! ## The opcode table as data (R58), to hold the decoder against -/

/-- One row of opcode_table.json: a word selects it when `(word & mask) = pattern`, in a session whose mapper has the
row's variant where it names one. -/
structure OpcodeRow where
  mnemonic : String
  pattern : Word
  mask : Word
  variant : Option Variant
deriving DecidableEq, Repr

/-- The rows of the register window, in table order. -/
def windowRows : List OpcodeRow := [
  ⟨"PPUCTRL_R", 0x00200000#32, 0xFFE007FF#32, none⟩,
  ⟨"PPUCTRL_P", 0x02200000#32, 0xFFE007FF#32, none⟩,
  ⟨"PPUCTRL_W", 0x01200000#32, 0xFFE00700#32, none⟩,
  ⟨"PPUMASK_R", 0x00200100#32, 0xFFE007FF#32, none⟩,
  ⟨"PPUMASK_P", 0x02200100#32, 0xFFE007FF#32, none⟩,
  ⟨"PPUMASK_W", 0x01200100#32, 0xFFE00700#32, none⟩,
  ⟨"PPUSTATUS_R", 0x00200200#32, 0xFFE007FF#32, none⟩,
  ⟨"PPUSTATUS_P", 0x02200200#32, 0xFFE007FF#32, none⟩,
  ⟨"PPUSTATUS_W", 0x01200200#32, 0xFFE00700#32, none⟩,
  ⟨"OAMADDR_R", 0x00200300#32, 0xFFE007FF#32, none⟩,
  ⟨"OAMADDR_P", 0x02200300#32, 0xFFE007FF#32, none⟩,
  ⟨"OAMADDR_W", 0x01200300#32, 0xFFE00700#32, none⟩,
  ⟨"OAMDATA_R", 0x00200400#32, 0xFFE007FF#32, none⟩,
  ⟨"OAMDATA_P", 0x02200400#32, 0xFFE007FF#32, none⟩,
  ⟨"OAMDATA_W", 0x01200400#32, 0xFFE00700#32, none⟩,
  ⟨"PPUSCROLL_R", 0x00200500#32, 0xFFE007FF#32, none⟩,
  ⟨"PPUSCROLL_P", 0x02200500#32, 0xFFE007FF#32, none⟩,
  ⟨"PPUSCROLL_W", 0x01200500#32, 0xFFE00700#32, none⟩,
  ⟨"PPUADDR_R", 0x00200600#32, 0xFFE007FF#32, none⟩,
  ⟨"PPUADDR_P", 0x02200600#32, 0xFFE007FF#32, none⟩,
  ⟨"PPUADDR_W", 0x01200600#32, 0xFFE00700#32, none⟩,
  ⟨"PPUDATA_R", 0x00200700#32, 0xFFE007FF#32, none⟩,
  ⟨"PPUDATA_P", 0x02200700#32, 0xFFE007FF#32, none⟩,
  ⟨"PPUDATA_W", 0x01200700#32, 0xFFE00700#32, none⟩,
  ⟨"OAMDMA_R", 0x00401400#32, 0xFFFFFFFF#32, none⟩,
  ⟨"OAMDMA_P", 0x02401400#32, 0xFFFFFFFF#32, none⟩,
  ⟨"OAMDMA_W", 0x01401400#32, 0xFFFFFF00#32, none⟩,
  ⟨"WIN_OUTSIDE_R", 0x00000000#32, 0xFF0000FF#32, none⟩,
  ⟨"WIN_OUTSIDE_P", 0x02000000#32, 0xFF0000FF#32, none⟩,
  ⟨"WIN_OUTSIDE_W", 0x01000000#32, 0xFF000000#32, none⟩]

/-- The rows of variant 0, in table order. -/
def nromRows : List OpcodeRow := [
  ⟨"NROM_CHR_R", 0x10000000#32, 0xFFE000FF#32, some .nrom⟩,
  ⟨"NROM_CHR_W", 0x11000000#32, 0xFFE00000#32, some .nrom⟩,
  ⟨"NROM_PRG_R", 0x10800000#32, 0xFF8000FF#32, some .nrom⟩,
  ⟨"NROM_PRG_W", 0x11800000#32, 0xFF800000#32, some .nrom⟩,
  ⟨"NROM_PEEK", 0x12000000#32, 0xFF0000FF#32, some .nrom⟩,
  ⟨"NROM_UNMAPPED_R", 0x10000000#32, 0xFF0000FF#32, some .nrom⟩,
  ⟨"NROM_UNMAPPED_W", 0x11000000#32, 0xFF000000#32, some .nrom⟩]

/-- The rows of variant 1, in table order. -/
def mmc1Rows : List OpcodeRow := [
  ⟨"MMC1_PRGRAM_R", 0x10600000#32, 0xFFE000FF#32, some .mmc1⟩,
  ⟨"MMC1_PRGRAM_W", 0x11600000#32, 0xFFE00000#32, some .mmc1⟩,
  ⟨"MMC1_W_CTRL", 0x11800000#32, 0xFFE00000#32, some .mmc1⟩,
  ⟨"MMC1_W_CHR0", 0x11A00000#32, 0xFFE00000#32, some .mmc1⟩,
  ⟨"MMC1_W_CHR1", 0x11C00000#32, 0xFFE00000#32, some .mmc1⟩,
  ⟨"MMC1_W_PRG", 0x11E00000#32, 0xFFE00000#32, some .mmc1⟩,
  ⟨"MMC1_PRG_LO_R", 0x10800000#32, 0xFFC000FF#32, some .mmc1⟩,
  ⟨"MMC1_PRG_HI_R", 0x10C00000#32, 0xFFC000FF#32, some .mmc1⟩,
  ⟨"MMC1_CHR_LO_R", 0x10000000#32, 0xFFF000FF#32, some .mmc1⟩,
  ⟨"MMC1_CHR_HI_R", 0x10100000#32, 0xFFF000FF#32, some .mmc1⟩,
  ⟨"MMC1_CHR_W", 0x11000000#32, 0xFFE00000#32, some .mmc1⟩,
  ⟨"MMC1_PEEK", 0x12000000#32, 0xFF0000FF#32, some .mmc1⟩,
  ⟨"MMC1_UNMAPPED_R", 0x10000000#32, 0xFF0000FF#32, some .mmc1⟩,
  ⟨"MMC1_UNMAPPED_W", 0x11000000#32, 0xFF000000#32, some .mmc1⟩]

/-- The rows of variant 2, in table order. -/
def uxromRows : List OpcodeRow := [
  ⟨"UXROM_W_BANK", 0x11800000#32, 0xFF800000#32, some .uxrom⟩,
  ⟨"UXROM_PRG_LO_R", 0x10800000#32, 0xFFC000FF#32, some .uxrom⟩,
  ⟨"UXROM_PRG_HI_R", 0x10C00000#32, 0xFFC000FF#32, some .uxrom⟩,
  ⟨"UXROM_CHR_R", 0x10000000#32, 0xFFE000FF#32, some .uxrom⟩,
  ⟨"UXROM_CHR_W", 0x11000000#32, 0xFFE00000#32, some .uxrom⟩,
  ⟨"UXROM_PEEK", 0x12000000#32, 0xFF0000FF#32, some .uxrom⟩,
  ⟨"UXROM_UNMAPPED_R", 0x10000000#32, 0xFF0000FF#32, some .uxrom⟩,
  ⟨"UXROM_UNMAPPED_W", 0x11000000#32, 0xFF000000#32, some .uxrom⟩]

/-- The rows of variant 3, in table order. -/
def cnromRows : List OpcodeRow := [
  ⟨"CNROM_W_BANK", 0x11800000#32, 0xFF800000#32, some .cnrom⟩,
  ⟨"CNROM_CHR_R", 0x10000000#32, 0xFFE000FF#32, some .cnrom⟩,
  ⟨"CNROM_CHR_W", 0x11000000#32, 0xFFE00000#32, some .cnrom⟩,
  ⟨"CNROM_PRG_R", 0x10800000#32, 0xFF8000FF#32, some .cnrom⟩,
  ⟨"CNROM_PEEK", 0x12000000#32, 0xFF0000FF#32, some .cnrom⟩,
  ⟨"CNROM_UNMAPPED_R", 0x10000000#32, 0xFF0000FF#32, some .cnrom⟩,
  ⟨"CNROM_UNMAPPED_W", 0x11000000#32, 0xFF000000#32, some .cnrom⟩]

/-- The rows of the PPU bus, in table order. -/
def busRows : List OpcodeRow := [
  ⟨"PBUS_PT_R", 0x20000000#32, 0xFFE000FF#32, none⟩,
  ⟨"PBUS_PAL_R", 0x203F0000#32, 0xFFFF00FF#32, none⟩,
  ⟨"PBUS_NT_R", 0x20200000#32, 0xFFE000FF#32, none⟩,
  ⟨"PBUS_PT_W", 0x21000000#32, 0xFFE00000#32, none⟩,
  ⟨"PBUS_PAL_W", 0x213F0000#32, 0xFFFF0000#32, none⟩,
  ⟨"PBUS_NT_W", 0x21200000#32, 0xFFE00000#32, none⟩,
  ⟨"PBUS_PT_P", 0x22000000#32, 0xFFE000FF#32, none⟩,
  ⟨"PBUS_PAL_P", 0x223F0000#32, 0xFFFF00FF#32, none⟩,
  ⟨"PBUS_NT_P", 0x22200000#32, 0xFFE000FF#32, none⟩]

/-- The rows of the PPU and the mapper, in table order. -/
def lifecycleRows : List OpcodeRow := [
  ⟨"PPU_TICK", 0x33000000#32, 0xFFFFFFFF#32, none⟩,
  ⟨"PPU_POWER_CYCLE", 0x34000000#32, 0xFFFFFFFF#32, none⟩,
  ⟨"PPU_RESET", 0x35000000#32, 0xFFFFFFFF#32, none⟩,
  ⟨"PPU_FRAMEBUFFER", 0x37000000#32, 0xFFFFFFFF#32, none⟩,
  ⟨"PPU_FRAME_COUNT", 0x38000000#32, 0xFFFFFFFF#32, none⟩,
  ⟨"MAP_FACTORY", 0x49000000#32, 0xFFFFFF00#32, none⟩,
  ⟨"MAP_TICK", 0x43000000#32, 0xFFFFFFFF#32, none⟩,
  ⟨"MAP_MIRRORING", 0x46000000#32, 0xFFFFFFFF#32, none⟩]

/-- opcode_table.json, in its order. -/
def opcodeTable : List OpcodeRow :=
  windowRows ++ nromRows ++ mmc1Rows ++ uxromRows ++ cnromRows ++ busRows ++ lifecycleRows

/-- The word selects the row, with a mapper of variant `v` (R58). -/
def OpcodeRow.selects (v : Variant) (w : Word) (r : OpcodeRow) : Bool :=
  (r.variant == none || r.variant == some v) && (w &&& r.mask) == r.pattern

/-- "Rows are tried in table order and the first that selects wins" (R58). -/
def selectRow (v : Variant) (w : Word) : Option OpcodeRow := opcodeTable.find? (OpcodeRow.selects v w)

/-- The row of the opcode table an operation stands for. -/
def Instr.row : Instr → OpcodeRow
  | .ppuctrlR _ => ⟨"PPUCTRL_R", 0x00200000#32, 0xFFE007FF#32, none⟩
  | .ppuctrlP _ => ⟨"PPUCTRL_P", 0x02200000#32, 0xFFE007FF#32, none⟩
  | .ppuctrlW _ _ => ⟨"PPUCTRL_W", 0x01200000#32, 0xFFE00700#32, none⟩
  | .ppumaskR _ => ⟨"PPUMASK_R", 0x00200100#32, 0xFFE007FF#32, none⟩
  | .ppumaskP _ => ⟨"PPUMASK_P", 0x02200100#32, 0xFFE007FF#32, none⟩
  | .ppumaskW _ _ => ⟨"PPUMASK_W", 0x01200100#32, 0xFFE00700#32, none⟩
  | .ppustatusR _ => ⟨"PPUSTATUS_R", 0x00200200#32, 0xFFE007FF#32, none⟩
  | .ppustatusP _ => ⟨"PPUSTATUS_P", 0x02200200#32, 0xFFE007FF#32, none⟩
  | .ppustatusW _ _ => ⟨"PPUSTATUS_W", 0x01200200#32, 0xFFE00700#32, none⟩
  | .oamaddrR _ => ⟨"OAMADDR_R", 0x00200300#32, 0xFFE007FF#32, none⟩
  | .oamaddrP _ => ⟨"OAMADDR_P", 0x02200300#32, 0xFFE007FF#32, none⟩
  | .oamaddrW _ _ => ⟨"OAMADDR_W", 0x01200300#32, 0xFFE00700#32, none⟩
  | .oamdataR _ => ⟨"OAMDATA_R", 0x00200400#32, 0xFFE007FF#32, none⟩
  | .oamdataP _ => ⟨"OAMDATA_P", 0x02200400#32, 0xFFE007FF#32, none⟩
  | .oamdataW _ _ => ⟨"OAMDATA_W", 0x01200400#32, 0xFFE00700#32, none⟩
  | .ppuscrollR _ => ⟨"PPUSCROLL_R", 0x00200500#32, 0xFFE007FF#32, none⟩
  | .ppuscrollP _ => ⟨"PPUSCROLL_P", 0x02200500#32, 0xFFE007FF#32, none⟩
  | .ppuscrollW _ _ => ⟨"PPUSCROLL_W", 0x01200500#32, 0xFFE00700#32, none⟩
  | .ppuaddrR _ => ⟨"PPUADDR_R", 0x00200600#32, 0xFFE007FF#32, none⟩
  | .ppuaddrP _ => ⟨"PPUADDR_P", 0x02200600#32, 0xFFE007FF#32, none⟩
  | .ppuaddrW _ _ => ⟨"PPUADDR_W", 0x01200600#32, 0xFFE00700#32, none⟩
  | .ppudataR _ => ⟨"PPUDATA_R", 0x00200700#32, 0xFFE007FF#32, none⟩
  | .ppudataP _ => ⟨"PPUDATA_P", 0x02200700#32, 0xFFE007FF#32, none⟩
  | .ppudataW _ _ => ⟨"PPUDATA_W", 0x01200700#32, 0xFFE00700#32, none⟩
  | .oamdmaR => ⟨"OAMDMA_R", 0x00401400#32, 0xFFFFFFFF#32, none⟩
  | .oamdmaP => ⟨"OAMDMA_P", 0x02401400#32, 0xFFFFFFFF#32, none⟩
  | .oamdmaW _ => ⟨"OAMDMA_W", 0x01401400#32, 0xFFFFFF00#32, none⟩
  | .winOutsideR _ => ⟨"WIN_OUTSIDE_R", 0x00000000#32, 0xFF0000FF#32, none⟩
  | .winOutsideP _ => ⟨"WIN_OUTSIDE_P", 0x02000000#32, 0xFF0000FF#32, none⟩
  | .winOutsideW _ _ => ⟨"WIN_OUTSIDE_W", 0x01000000#32, 0xFF000000#32, none⟩
  | .nromChrR _ => ⟨"NROM_CHR_R", 0x10000000#32, 0xFFE000FF#32, some .nrom⟩
  | .nromChrW _ _ => ⟨"NROM_CHR_W", 0x11000000#32, 0xFFE00000#32, some .nrom⟩
  | .nromPrgR _ => ⟨"NROM_PRG_R", 0x10800000#32, 0xFF8000FF#32, some .nrom⟩
  | .nromPrgW _ _ => ⟨"NROM_PRG_W", 0x11800000#32, 0xFF800000#32, some .nrom⟩
  | .nromPeek _ => ⟨"NROM_PEEK", 0x12000000#32, 0xFF0000FF#32, some .nrom⟩
  | .nromUnmappedR _ => ⟨"NROM_UNMAPPED_R", 0x10000000#32, 0xFF0000FF#32, some .nrom⟩
  | .nromUnmappedW _ _ => ⟨"NROM_UNMAPPED_W", 0x11000000#32, 0xFF000000#32, some .nrom⟩
  | .mmc1PrgramR _ => ⟨"MMC1_PRGRAM_R", 0x10600000#32, 0xFFE000FF#32, some .mmc1⟩
  | .mmc1PrgramW _ _ => ⟨"MMC1_PRGRAM_W", 0x11600000#32, 0xFFE00000#32, some .mmc1⟩
  | .mmc1WCtrl _ _ => ⟨"MMC1_W_CTRL", 0x11800000#32, 0xFFE00000#32, some .mmc1⟩
  | .mmc1WChr0 _ _ => ⟨"MMC1_W_CHR0", 0x11A00000#32, 0xFFE00000#32, some .mmc1⟩
  | .mmc1WChr1 _ _ => ⟨"MMC1_W_CHR1", 0x11C00000#32, 0xFFE00000#32, some .mmc1⟩
  | .mmc1WPrg _ _ => ⟨"MMC1_W_PRG", 0x11E00000#32, 0xFFE00000#32, some .mmc1⟩
  | .mmc1PrgLoR _ => ⟨"MMC1_PRG_LO_R", 0x10800000#32, 0xFFC000FF#32, some .mmc1⟩
  | .mmc1PrgHiR _ => ⟨"MMC1_PRG_HI_R", 0x10C00000#32, 0xFFC000FF#32, some .mmc1⟩
  | .mmc1ChrLoR _ => ⟨"MMC1_CHR_LO_R", 0x10000000#32, 0xFFF000FF#32, some .mmc1⟩
  | .mmc1ChrHiR _ => ⟨"MMC1_CHR_HI_R", 0x10100000#32, 0xFFF000FF#32, some .mmc1⟩
  | .mmc1ChrW _ _ => ⟨"MMC1_CHR_W", 0x11000000#32, 0xFFE00000#32, some .mmc1⟩
  | .mmc1Peek _ => ⟨"MMC1_PEEK", 0x12000000#32, 0xFF0000FF#32, some .mmc1⟩
  | .mmc1UnmappedR _ => ⟨"MMC1_UNMAPPED_R", 0x10000000#32, 0xFF0000FF#32, some .mmc1⟩
  | .mmc1UnmappedW _ _ => ⟨"MMC1_UNMAPPED_W", 0x11000000#32, 0xFF000000#32, some .mmc1⟩
  | .uxromWBank _ _ => ⟨"UXROM_W_BANK", 0x11800000#32, 0xFF800000#32, some .uxrom⟩
  | .uxromPrgLoR _ => ⟨"UXROM_PRG_LO_R", 0x10800000#32, 0xFFC000FF#32, some .uxrom⟩
  | .uxromPrgHiR _ => ⟨"UXROM_PRG_HI_R", 0x10C00000#32, 0xFFC000FF#32, some .uxrom⟩
  | .uxromChrR _ => ⟨"UXROM_CHR_R", 0x10000000#32, 0xFFE000FF#32, some .uxrom⟩
  | .uxromChrW _ _ => ⟨"UXROM_CHR_W", 0x11000000#32, 0xFFE00000#32, some .uxrom⟩
  | .uxromPeek _ => ⟨"UXROM_PEEK", 0x12000000#32, 0xFF0000FF#32, some .uxrom⟩
  | .uxromUnmappedR _ => ⟨"UXROM_UNMAPPED_R", 0x10000000#32, 0xFF0000FF#32, some .uxrom⟩
  | .uxromUnmappedW _ _ => ⟨"UXROM_UNMAPPED_W", 0x11000000#32, 0xFF000000#32, some .uxrom⟩
  | .cnromWBank _ _ => ⟨"CNROM_W_BANK", 0x11800000#32, 0xFF800000#32, some .cnrom⟩
  | .cnromChrR _ => ⟨"CNROM_CHR_R", 0x10000000#32, 0xFFE000FF#32, some .cnrom⟩
  | .cnromChrW _ _ => ⟨"CNROM_CHR_W", 0x11000000#32, 0xFFE00000#32, some .cnrom⟩
  | .cnromPrgR _ => ⟨"CNROM_PRG_R", 0x10800000#32, 0xFF8000FF#32, some .cnrom⟩
  | .cnromPeek _ => ⟨"CNROM_PEEK", 0x12000000#32, 0xFF0000FF#32, some .cnrom⟩
  | .cnromUnmappedR _ => ⟨"CNROM_UNMAPPED_R", 0x10000000#32, 0xFF0000FF#32, some .cnrom⟩
  | .cnromUnmappedW _ _ => ⟨"CNROM_UNMAPPED_W", 0x11000000#32, 0xFF000000#32, some .cnrom⟩
  | .pbusPtR _ => ⟨"PBUS_PT_R", 0x20000000#32, 0xFFE000FF#32, none⟩
  | .pbusPalR _ => ⟨"PBUS_PAL_R", 0x203F0000#32, 0xFFFF00FF#32, none⟩
  | .pbusNtR _ => ⟨"PBUS_NT_R", 0x20200000#32, 0xFFE000FF#32, none⟩
  | .pbusPtW _ _ => ⟨"PBUS_PT_W", 0x21000000#32, 0xFFE00000#32, none⟩
  | .pbusPalW _ _ => ⟨"PBUS_PAL_W", 0x213F0000#32, 0xFFFF0000#32, none⟩
  | .pbusNtW _ _ => ⟨"PBUS_NT_W", 0x21200000#32, 0xFFE00000#32, none⟩
  | .pbusPtP _ => ⟨"PBUS_PT_P", 0x22000000#32, 0xFFE000FF#32, none⟩
  | .pbusPalP _ => ⟨"PBUS_PAL_P", 0x223F0000#32, 0xFFFF00FF#32, none⟩
  | .pbusNtP _ => ⟨"PBUS_NT_P", 0x22200000#32, 0xFFE000FF#32, none⟩
  | .ppuTick => ⟨"PPU_TICK", 0x33000000#32, 0xFFFFFFFF#32, none⟩
  | .ppuPowerCycle => ⟨"PPU_POWER_CYCLE", 0x34000000#32, 0xFFFFFFFF#32, none⟩
  | .ppuReset => ⟨"PPU_RESET", 0x35000000#32, 0xFFFFFFFF#32, none⟩
  | .ppuFramebuffer => ⟨"PPU_FRAMEBUFFER", 0x37000000#32, 0xFFFFFFFF#32, none⟩
  | .ppuFrameCount => ⟨"PPU_FRAME_COUNT", 0x38000000#32, 0xFFFFFFFF#32, none⟩
  | .mapFactory _ => ⟨"MAP_FACTORY", 0x49000000#32, 0xFFFFFF00#32, none⟩
  | .mapTick => ⟨"MAP_TICK", 0x43000000#32, 0xFFFFFFFF#32, none⟩
  | .mapMirroring => ⟨"MAP_MIRRORING", 0x46000000#32, 0xFFFFFFFF#32, none⟩

end Sys2Proof
end

