-- ==== Sys2Proof/Config.lean ====
section
/-! DEFINITION. The fixed parameters of R8 and the named parameters of R9. -/

namespace Sys2Proof

namespace Config

/-- Scanlines per frame (R8). -/
def scanlines : Nat := 262
/-- Dots per scanline (R8). -/
def dots : Nat := 341
/-- Size of a program-data bank (R8). -/
def prgBank : Nat := 16384
/-- Size of a graphics-data bank (R8). -/
def chrBank : Nat := 8192
/-- Size of a graphics-data bank of variant 1's split mode (R8). -/
def chrBank4 : Nat := 4096
/-- Size of variant 1's PRG-RAM (R8). -/
def prgRamSize : Nat := 8192
/-- Size of CHR-RAM (R8). -/
def chrRamSize : Nat := 8192
/-- Size of primary OAM (R8). -/
def oamSize : Nat := 256
/-- Size of secondary OAM (R8). -/
def soamSize : Nat := 32
/-- Size of palette RAM (R8). -/
def paletteSize : Nat := 32
/-- Nametable RAM but under four-screen mirroring (R8). -/
def ntramSize : Nat := 2048
/-- Nametable RAM under four-screen mirroring (R8). -/
def ntramSizeFour : Nat := 4096

end Config

/-- `DMA_DEST_START` (R9): the first OAM index an OAM DMA writes. -/
inductive DmaDest where
  | oamaddr
  | zero
deriving DecidableEq, Repr

/-- Which program bank variant 3 shows at $C000. The spec gives two answers, which differ with more than two banks: bank
`1 mod nprg16` (R95), and the last bank (the table of R39, and R177). -/
inductive HighWindow where
  | bankOne
  | lastBank
deriving DecidableEq, Repr

/-- The named parameters of R9 that a rule reads or names, every default R9's, and last one of the model's own. `INIT_*` are arguments of
`State.construct`, `CPU_MEM_READ` is `State.cpuMem`. DESIGN CHOICE, safe: the parameters stand in the state, no step
changes them, and a statement about every state holds for every value of them (log 4). -/
structure Params where
  /-- `PPUDATA_READ_BUFFERED` -/
  ppudataReadBuffered : Bool := false
  /-- `ODD_FRAME_SKIP` -/
  oddFrameSkip : Bool := true
  /-- `NMI_ON_CTRL_ENABLE` -/
  nmiOnCtrlEnable : Bool := false
  /-- `SPRITE0_X255_EXCLUDED` -/
  sprite0X255Excluded : Bool := false
  /-- `UNMAPPED_READ`, the listed answers; an address not listed answers 0x00 (log 5) -/
  unmappedRead : List Host.Cell := []
  /-- `DMA_DEST_START` -/
  dmaDestStart : DmaDest := .oamaddr
  /-- `PPU_TICKS_PER_CPU_CYCLE`; no rule depends on it (R9) -/
  ppuTicksPerCpuCycle : Nat := 3
  /-- `DMA_STALL_CPU_CYCLES`; no rule depends on it (R9). DESIGN CHOICE between 513 and 514 (log 21) -/
  dmaStallCpuCycles : Nat := 513
  /-- the model's own: which of the spec's two answers variant 3's $C000 window follows. DESIGN CHOICE: the default is that
  of R95, the rule of the operation itself (log 30) -/
  cnromHighWindow : HighWindow := .bankOne
deriving DecidableEq, Repr

/-- Every named parameter at its default (R9), and the model's own at that of log 30. -/
def Config.defaults : Params := {}

end Sys2Proof
end

