-- ==== Sys2Proof/Machine/State.lean ====
section
/-! DEFINITION. The state of the core (10_state.md), as plain data, and the machine right after construction (R172). -/

namespace Sys2Proof.Machine

/-! ## Memories -/

/-- Data by key: a list of (key, value) pairs in one canonical form (`Cells.wf` in Machine/Ops.lean). -/
abbrev Cells (α : Type) := List (Nat × α)

/-- A byte memory: what an address not listed reads as is `Memory.unlisted` (Machine/Ops.lean). -/
abbrev Memory := List Host.Cell

/-- One pixel, `emphasis[2:0] : colour[5:0]` (R28). -/
abbrev Pixel := BitVec 9

/-- The framebuffer, indexed `[y][x]` (R28): the rows listed by `y`, each the pixels listed by `x`; a row or pixel not
listed is 0 (log 24). -/
abbrev Framebuffer := Cells (Cells Pixel)

/-! ## Cartridge metadata and the mapper -/

/-- The nametable topology `mirroring()` reports (R42, R66). -/
inductive Topology where
  | horizontal
  | vertical
  | singleLower
  | singleUpper
  | fourScreen
deriving DecidableEq, Repr

/-- The mirroring hint of the metadata (R30). -/
inductive Hint where
  | horizontal
  | vertical
  | fourScreen
deriving DecidableEq, Repr

/-- A byte array of the metadata with its own length (R30): byte `i < len` is what `bytes` reads at `i`. -/
structure Image where
  len : Nat
  bytes : Memory
deriving DecidableEq, Repr

/-- Cartridge metadata (R30), "owned by the loader". -/
structure Metadata where
  mapperId : Byte
  valid : Bool
  prgSize : Nat
  chrSize : Nat
  prgBytes : Image
  chrBytes : Image
  hint : Hint
deriving DecidableEq, Repr

/-- The registers of variant 1 and its PRG-RAM (R33, R31). -/
structure Mmc1 where
  shift : BitVec 5
  count : Nat
  control : BitVec 5
  chr0 : BitVec 5
  chr1 : BitVec 5
  prg : BitVec 5
  prgram : Memory
deriving DecidableEq, Repr

/-- The control registers of a mapper; which constructor it is, is the variant (R31 to R35). -/
inductive MapperRegs where
  | nrom
  | mmc1 (r : Mmc1)
  | uxrom (bank : Byte)
  | cnrom (bank : Byte)
deriving DecidableEq, Repr

/-- A constructed mapper (R31). With `chrSize = 0` the graphics data is CHR-RAM. -/
structure Mapper where
  prg : Memory
  prgSize : Nat
  chr : Memory
  chrSize : Nat
  hint : Hint
  regs : MapperRegs
deriving DecidableEq, Repr

/-! ## The PPU -/

/-- The background pipeline (R24). -/
structure Background where
  ntLatch : Byte
  atLatch : BitVec 2
  ptLoLatch : Byte
  ptHiLatch : Byte
  bgShiftLo : BitVec 16
  bgShiftHi : BitVec 16
  atShiftLo : BitVec 16
  atShiftHi : BitVec 16
deriving DecidableEq, Repr

/-- One sprite unit (R25). -/
structure SpriteUnit where
  x : Byte
  attr : Byte
  lo : Byte
  hi : Byte
deriving DecidableEq, Repr

/-- The PPU's own state (R15 to R25, R28). -/
structure Ppu where
  ctrl : Byte
  mask : Byte
  vblank : Bool
  s0hit : Bool
  overflow : Bool
  oamAddr : Byte
  v : BitVec 15
  t : BitVec 15
  x : BitVec 3
  /-- the write toggle: false "expect high byte", true the second write of a pair (R20) -/
  w : Bool
  readBuffer : Byte
  ioLatch : Byte
  scanline : Nat
  dot : Nat
  frameCount : Nat
  oddFrame : Bool
  bg : Background
  soamCount : Nat
  spr0Next : Bool
  units : Vector SpriteUnit 8
  unitCount : Nat
  spr0Line : Bool
  framebuffer : Framebuffer
deriving DecidableEq, Repr

/-! ## Outputs and inputs -/

/-- The core's output events (R29). -/
inductive Event where
  | nmiSignal
  | dmaTransfer (page : Byte)
deriving DecidableEq, Repr

/-- The factory's outcomes (R154): codes 0, 1, 2. -/
inductive FactoryOutcome where
  | ok
  | invalid
  | unsupported
deriving DecidableEq, Repr

/-- What an operation returns to the host. DESIGN CHOICE, safe: the state keeps the last returned value (log 3). -/
inductive Reply where
  | none
  | byte (b : Byte)
  | topology (m : Topology)
  | frames (n : Nat)
  | picture (fb : Framebuffer)
  | factory (o : FactoryOutcome)
deriving DecidableEq, Repr

/-- One transaction of the host: its word (R54), and what the host hands over with it: the metadata a `MAP.NEW` carries
(R173) and the answers of `CPU_MEM_READ` from then on (R171). DESIGN CHOICE, safe (log 7). -/
structure Transaction where
  word : Word
  cartridge : Option Metadata := none
  cpuMem : Option Memory := none
deriving DecidableEq, Repr

/-- The whole machine: the PPU, the mapper slot, the memories the host owns, the loader's metadata, the outputs, and the
host's side (the parameters, the processor's memory, the transactions still to issue). -/
structure State where
  /-- the named parameters (R9) -/
  cfg : Params
  ppu : Ppu
  /-- the mapper slot, empty until the first successful `MAP.NEW` (R156) -/
  mapper : Option Mapper
  oam : Memory
  soam : Memory
  ntram : Memory
  palette : Memory
  /-- the loader's metadata (R30) -/
  cartridge : Metadata
  /-- the answers of `CPU_MEM_READ` (R9, R11) -/
  cpuMem : Memory
  /-- the events, in order, oldest first (R29) -/
  history : List Event
  /-- the model's own: what the last operation returned (log 3) -/
  reply : Reply
  /-- the model's own: the transactions the host has yet to issue, oldest first (log 1) -/
  inbox : List Transaction
deriving DecidableEq, Repr

/-! ## How a step can stop -/

/-- "No operation of the PPU or of a constructed mapper fails" (R153), and the core takes no trap (R163): there is no
fault. Raised by nobody. DEDUCED, safe (log 19). -/
inductive Fault where
deriving DecidableEq, Repr

/-- Why the model refuses an operation (R155). A refused operation has no next state: "A refused operation changes no
state and records no event". -/
inductive Refusal where
  /-- raised by an arm of `exec` whose instruction has no meaning yet; there is none. Safe. -/
  | notModelled (mnemonic : String)
  /-- `BadWord`: raised by `step` for a word that spells no operation (R60). Safe: no hardware counterpart. -/
  | badWord
  /-- `NoCartridge`: raised by `step` for a cartridge word, and by every meaning that needs the mapper, while the slot is
  empty (R156). Safe: no hardware counterpart. -/
  | noCartridge
  /-- `DmaFromWindow`: raised by an OAMDMA write of page $20 to $3F (R116). Safe: no hardware counterpart. -/
  | dmaFromWindow
  /-- The model's own: raised by the meaning of a row of one variant while the slot holds another (such a row "applies
  only when the mapper's variant equals it", R58). `step` never raises it: it decodes a word for the variant in the slot.
  DESIGN CHOICE, safe (log 10). -/
  | otherVariant
deriving DecidableEq, Repr

/-! ## Construction -/

/-- All 0 (R36, "rule R24 state"). -/
def Background.initial : Background :=
  { ntLatch := 0, atLatch := 0, ptLoLatch := 0, ptHiLatch := 0, bgShiftLo := 0, bgShiftHi := 0, atShiftLo := 0,
    atShiftHi := 0 }

/-- All 0 (R36, "`unit[i].*`"). -/
def SpriteUnit.initial : SpriteUnit := { x := 0, attr := 0, lo := 0, hi := 0 }

/-- The eight units, empty. -/
def Ppu.noUnits : Vector SpriteUnit 8 := Vector.replicate 8 SpriteUnit.initial

/-- The construction column of R36, "which equals the `power_cycle()` column" (R172). -/
def Ppu.initial : Ppu :=
  { ctrl := 0, mask := 0, vblank := false, s0hit := false, overflow := false, oamAddr := 0, v := 0, t := 0, x := 0,
    w := false, readBuffer := 0, ioLatch := 0, scanline := 0, dot := 0, frameCount := 0, oddFrame := false,
    bg := Background.initial, soamCount := 0, spr0Next := false, units := Ppu.noUnits, unitCount := 0,
    spr0Line := false, framebuffer := [] }

/-- No cartridge offered yet. DESIGN CHOICE: the spec gives the metadata no value before a cartridge is loaded; this one
the factory answers with `Invalid` (log 8). -/
def Metadata.none : Metadata :=
  { mapperId := 0, valid := false, prgSize := 0, chrSize := 0, prgBytes := ⟨0, []⟩, chrBytes := ⟨0, []⟩,
    hint := .horizontal }

/-- Construction of the system (R172): the named parameters and the contents `INIT_OAM`, `INIT_SOAM`, `INIT_NTRAM`,
`INIT_PALETTE` of the host-owned memories are its arguments (R9, R36). -/
def State.construct (cfg : Params) (initOam initSoam initNtram initPalette : Memory) : State :=
  { cfg := cfg, ppu := Ppu.initial, mapper := none, oam := initOam, soam := initSoam, ntram := initNtram,
    palette := initPalette, cartridge := Metadata.none, cpuMem := [], history := [], reply := .none, inbox := [] }

/-- The machine right after construction with every named parameter at its default: the `INIT_*` contents are all 0x00
(R9, R172). -/
def State.reset : State := State.construct Config.defaults [] [] [] []

end Sys2Proof.Machine
end

