-- ==== Sys2Proof/Machine/Operands.lean ====
section
/-! DEFINITION. Every operand form: the fields of the control and mask registers (R15, R16), of `v` and `t` (R20), of the
data byte of a window write (R57), of a sprite's attributes (R25), and the address forms of the rendering fetches. The
addresses a row's operand stands for are in Decode.lean. -/

namespace Sys2Proof.Machine

/-! ## PPUCTRL (R15) -/

/-- `ctrl.nt`, bits 1:0. -/
def ctrlNt (b : Byte) : BitVec 2 := b.extractLsb' 0 2
/-- `ctrl.inc`, bit 2. -/
def ctrlInc (b : Byte) : Bool := b.getLsbD 2
/-- `ctrl.spr_table`, bit 3. -/
def ctrlSprTable (b : Byte) : Bool := b.getLsbD 3
/-- `ctrl.bg_table`, bit 4. -/
def ctrlBgTable (b : Byte) : Bool := b.getLsbD 4
/-- `ctrl.spr_size`, bit 5. -/
def ctrlSprSize (b : Byte) : Bool := b.getLsbD 5
/-- `ctrl.nmi`, bit 7. -/
def ctrlNmi (b : Byte) : Bool := b.getLsbD 7

/-! ## PPUMASK (R16) -/

/-- `mask.grey`, bit 0. -/
def maskGrey (b : Byte) : Bool := b.getLsbD 0
/-- `mask.bg_left`, bit 1. -/
def maskBgLeft (b : Byte) : Bool := b.getLsbD 1
/-- `mask.spr_left`, bit 2. -/
def maskSprLeft (b : Byte) : Bool := b.getLsbD 2
/-- `mask.show_bg`, bit 3. -/
def maskShowBg (b : Byte) : Bool := b.getLsbD 3
/-- `mask.show_spr`, bit 4. -/
def maskShowSpr (b : Byte) : Bool := b.getLsbD 4
/-- The emphasis bits `mask[7:5]` (R28). -/
def maskEmphasis (b : Byte) : BitVec 3 := b.extractLsb' 5 3
/-- `rendering_enabled` (R16). -/
def renderingEnabled (mask : Byte) : Bool := maskShowBg mask || maskShowSpr mask

/-! ## `v` and `t` (R20) -/

/-- Coarse X, bits 4:0. -/
def coarseX (v : BitVec 15) : BitVec 5 := v.extractLsb' 0 5
/-- Coarse Y, bits 9:5. -/
def coarseY (v : BitVec 15) : BitVec 5 := v.extractLsb' 5 5
/-- Fine Y, bits 14:12. -/
def fineY (v : BitVec 15) : BitVec 3 := v.extractLsb' 12 3
/-- The PPU bus address `v[13:0]` (R40). -/
def busAddr (v : BitVec 15) : BusAddr := v.extractLsb' 0 14

/-! ## The data byte of a window write (R57) -/

/-- PPUCTRL: `D[1:0] -> t[11:10]` (R101). -/
def tAfterCtrl (t : BitVec 15) (d : Byte) : BitVec 15 :=
  (t &&& ~~~0x0C00#15) ||| ((ctrlNt d).setWidth 15 <<< 10)

/-- PPUSCROLL, first write: `D[7:3] -> t[4:0]` (R109). -/
def tAfterScrollX (t : BitVec 15) (d : Byte) : BitVec 15 :=
  (t &&& ~~~0x001F#15) ||| (d.extractLsb' 3 5).setWidth 15

/-- PPUSCROLL, first write: `D[2:0] -> x` (R109). -/
def fineXOf (d : Byte) : BitVec 3 := d.extractLsb' 0 3

/-- PPUSCROLL, second write: `D[2:0] -> t[14:12]`, `D[7:3] -> t[9:5]` (R109). -/
def tAfterScrollY (t : BitVec 15) (d : Byte) : BitVec 15 :=
  (t &&& ~~~0x73E0#15) ||| ((d.extractLsb' 0 3).setWidth 15 <<< 12) ||| ((d.extractLsb' 3 5).setWidth 15 <<< 5)

/-- PPUADDR, first write: `D[5:0] -> t[13:8]`, `0 -> t[14]` (R110). -/
def tAfterAddrHi (t : BitVec 15) (d : Byte) : BitVec 15 :=
  (t &&& 0x00FF#15) ||| ((d.extractLsb' 0 6).setWidth 15 <<< 8)

/-- PPUADDR, second write: `D[7:0] -> t[7:0]` (R110). -/
def tAfterAddrLo (t : BitVec 15) (d : Byte) : BitVec 15 :=
  (t &&& 0x7F00#15) ||| d.setWidth 15

/-- The data-port increment `VInc` (R111), modulo 2^15. -/
def vInc (ctrl : Byte) (v : BitVec 15) : BitVec 15 := v + (if ctrlInc ctrl then 32#15 else 1#15)

/-- The OAM DMA's source address `(d << 8) | i` (R116). -/
def dmaSource (page : Byte) (i : Byte) : Addr := page ++ i

/-- The pages whose DMA "would be this window" (R116): $20 to $3F. -/
def dmaFromWindow (page : Byte) : Bool := page.extractLsb' 5 3 == 1#3

/-! ## Scroll increments and copies (R138 to R141) -/

/-- `IncX` (R138). -/
def incX (v : BitVec 15) : BitVec 15 :=
  if coarseX v = 31#5 then (v &&& ~~~0x001F#15) ^^^ 0x0400#15 else v + 1#15

/-- `IncY` (R139). -/
def incY (v : BitVec 15) : BitVec 15 :=
  if (fineY v).toNat < 7 then v + 0x1000#15
  else
    let v := v &&& ~~~0x7000#15
    let y := coarseY v
    if y = 29#5 then (v ^^^ 0x0800#15) &&& ~~~0x03E0#15
    else if y = 31#5 then v &&& ~~~0x03E0#15
    else (v &&& ~~~0x03E0#15) ||| ((y + 1#5).setWidth 15 <<< 5)

/-- `CopyX` (R140). -/
def copyX (t v : BitVec 15) : BitVec 15 := (v &&& ~~~0x041F#15) ||| (t &&& 0x041F#15)

/-- `CopyY` (R141). -/
def copyY (t v : BitVec 15) : BitVec 15 := (v &&& ~~~0x7BE0#15) ||| (t &&& 0x7BE0#15)

/-! ## Fetch addresses (R135 to R137, R145) -/

/-- The nametable fetch's address (R135). -/
def ntFetchAddr (v : BitVec 15) : BusAddr := 0x2000#14 ||| (busAddr v &&& 0x0FFF#14)

/-- The attribute fetch's address (R136). -/
def atFetchAddr (v : BitVec 15) : BusAddr :=
  0x23C0#14 ||| (busAddr v &&& 0x0C00#14) ||| (busAddr (v >>> 4) &&& 0x38#14) ||| (busAddr (v >>> 2) &&& 0x07#14)

/-- The shift that selects the attribute quadrant (R136). -/
def atShiftOf (v : BitVec 15) : Nat := (((v >>> 4) &&& 0x04#15) ||| (v &&& 0x02#15)).toNat

/-- The two palette bits of the attribute byte (R136). -/
def atBits (v : BitVec 15) (b : Byte) : BitVec 2 := (b >>> atShiftOf v).extractLsb' 0 2

/-- A pattern table's base: $1000 when the select bit is 1 (R137, R145). -/
def patternBase (hi : Bool) : Nat := if hi then 0x1000 else 0

/-- The background pattern fetch's address, low plane (R137). -/
def ptFetchAddr (ctrl : Byte) (nt : Byte) (v : BitVec 15) : BusAddr :=
  BitVec.ofNat 14 (patternBase (ctrlBgTable ctrl) + nt.toNat * 16 + (fineY v).toNat)

/-- The sprite height (R144, R145). -/
def spriteHeight (ctrl : Byte) : Nat := if ctrlSprSize ctrl then 16 else 8

/-- The row of the sprite at `y` on scanline `s`, `(s - y) mod h` of signed arithmetic, then the vertical flip (R145). -/
def spriteRow (h s : Nat) (y attr : Byte) : Nat :=
  let row := (((s : Int) - (y.toNat : Int)) % (h : Int)).toNat
  if attr.getLsbD 7 then h - 1 - row else row

/-- The sprite pattern fetch's address, low plane, for row `row` (R145). -/
def spriteFetchAddr (ctrl : Byte) (tile : Byte) (row : Nat) : BusAddr :=
  if ctrlSprSize ctrl then
    BitVec.ofNat 14
      (patternBase (tile.getLsbD 0) + ((tile &&& 0xFE#8).toNat + (if 8 ≤ row then 1 else 0)) * 16 + row % 8)
  else BitVec.ofNat 14 (patternBase (ctrlSprTable ctrl) + tile.toNat * 16 + row)

/-! ## Palette addresses (R151) -/

/-- The backdrop. -/
def backdropAddr : BusAddr := 0x3F00#14
/-- A background pixel: $3F00 + `pal` x 4 + `p`. -/
def bgPaletteAddr (pal p : BitVec 2) : BusAddr := BitVec.ofNat 14 (0x3F00 + pal.toNat * 4 + p.toNat)
/-- A sprite pixel: $3F10 + `attr[1:0]` x 4 + `sp`. -/
def sprPaletteAddr (attr : Byte) (sp : BitVec 2) : BusAddr :=
  BitVec.ofNat 14 (0x3F10 + (attr.extractLsb' 0 2).toNat * 4 + sp.toNat)

/-! ## Indices into the PPU's own memories (R42, R43) -/

/-- `NtIndex(a, m)` (R42), for `a` in $2000 to $3EFF. -/
def ntIndex (a : BusAddr) (m : Topology) : Nat :=
  let r := (a.toNat - 0x2000) % 0x1000
  let table := r / 0x400
  let off := r % 0x400
  let phys := match m with
    | .vertical => table % 2
    | .horizontal => table / 2
    | .singleLower => 0
    | .singleUpper => 1
    | .fourScreen => table
  phys * 0x400 + off

/-- `PalIndex(a)` (R43). -/
def palIndex (a : BusAddr) : Nat :=
  let i := a.toNat % 0x20
  if i = 0x10 ∨ i = 0x14 ∨ i = 0x18 ∨ i = 0x1C then i - 0x10 else i

end Sys2Proof.Machine
end

