-- ==== Sys2Proof/Machine/Ops.lean ====
section
/-! DEFINITION. The named operations over memories, the mapper, the PPU bus, the latch and the outputs. Every meaning is
written over these. -/

namespace Sys2Proof.Machine

/-! ## Data by key

A `Cells` reads as `d` at a key it does not list. The canonical form `Cells.wf d`: keys strictly rising, no entry equal
to `d`; so equal contents are equal data. -/

/-- The value at `k`; `d` where `k` is not listed. -/
def Cells.get {α : Type} (d : α) (k : Nat) : Cells α → α
  | [] => d
  | (a, x) :: m => if a = k then x else Cells.get d k m

/-- List `x` at `k`, in place. -/
def Cells.put {α : Type} (k : Nat) (x : α) : Cells α → Cells α
  | [] => [(k, x)]
  | (a, y) :: m => if k < a then (k, x) :: (a, y) :: m else if a = k then (k, x) :: m else (a, y) :: Cells.put k x m

/-- No longer list `k`. -/
def Cells.drop {α : Type} (k : Nat) : Cells α → Cells α
  | [] => []
  | (a, y) :: m => if a = k then Cells.drop k m else (a, y) :: Cells.drop k m

/-- Write `x` at `k`: writing what an unlisted key reads as removes the entry. -/
def Cells.set {α : Type} [DecidableEq α] (d : α) (k : Nat) (x : α) (m : Cells α) : Cells α :=
  if x = d then Cells.drop k m else Cells.put k x m

/-- Canonical from key `lo` on. -/
def Cells.wfFrom {α : Type} [DecidableEq α] (d : α) : Nat → Cells α → Bool
  | _, [] => true
  | lo, (a, x) :: m => decide (lo ≤ a) && decide (x ≠ d) && Cells.wfFrom d (a + 1) m

/-- The canonical form. -/
def Cells.wf {α : Type} [DecidableEq α] (d : α) (m : Cells α) : Bool := Cells.wfFrom d 0 m

/-- Every listed key is below `n`. -/
def Cells.below {α : Type} (n : Nat) (m : Cells α) : Bool := m.all (fun c => decide (c.1 < n))

/-- Only the entries below `n` (R173: nametable RAM sized down). -/
def Cells.truncate {α : Type} (n : Nat) (m : Cells α) : Cells α := m.filter (fun c => decide (c.1 < n))

/-! ## Byte memories -/

/-- What an address not listed reads as, in every byte memory of the machine: 0x00, the default of `INIT_OAM`,
`INIT_SOAM`, `INIT_NTRAM`, `INIT_PALETTE` and `UNMAPPED_READ` (R9), and the contents of CHR-RAM and PRG-RAM at construction
(R31). DESIGN CHOICE, unsafe, for the processor's memory (log 6) and for the upper nametable bytes (log 11). -/
def Memory.unlisted : Byte := 0#8

/-- Read one byte. -/
def Memory.get (m : Memory) (k : Nat) : Byte := Cells.get Memory.unlisted k m

/-- Write one byte. -/
def Memory.set (m : Memory) (k : Nat) (b : Byte) : Memory := Cells.set Memory.unlisted k b m

/-- The canonical form. -/
def Memory.wf (m : Memory) : Bool := Cells.wf Memory.unlisted m

/-- The canonical form, with every listed address below `n`: a byte array of `n` bytes. -/
def Memory.array (n : Nat) (m : Memory) : Bool := Memory.wf m && Cells.below n m

/-! ## The framebuffer (R28) -/

/-- `framebuffer[y][x]`. -/
def Framebuffer.get (fb : Framebuffer) (y x : Nat) : Pixel := Cells.get 0#9 x (Cells.get [] y fb)

/-- `framebuffer[y][x] <- p`. -/
def Framebuffer.set (fb : Framebuffer) (y x : Nat) (p : Pixel) : Framebuffer :=
  Cells.set [] y (Cells.set 0#9 x p (Cells.get [] y fb)) fb

/-- Canonical rows of at most 256 pixels, at most 240 of them. -/
def Framebuffer.wf (fb : Framebuffer) : Bool :=
  Cells.wf [] fb && Cells.below 240 fb && fb.all (fun r => Cells.wf 0#9 r.2 && Cells.below 256 r.2)

/-! ## Updates of the state, one per field -/

def State.setPpu (s : State) (p : Ppu) : State := { s with ppu := p }
def State.setMapper (s : State) (m : Option Mapper) : State := { s with mapper := m }
def State.setOam (s : State) (m : Memory) : State := { s with oam := m }
def State.setSoam (s : State) (m : Memory) : State := { s with soam := m }
def State.setNtram (s : State) (m : Memory) : State := { s with ntram := m }
def State.setPalette (s : State) (m : Memory) : State := { s with palette := m }
def State.setCartridge (s : State) (md : Metadata) : State := { s with cartridge := md }
def State.setCpuMem (s : State) (m : Memory) : State := { s with cpuMem := m }
def State.setReply (s : State) (r : Reply) : State := { s with reply := r }
def State.setInbox (s : State) (q : List Transaction) : State := { s with inbox := q }
/-- Record an event: the history is in order (R29). -/
def State.record (s : State) (e : Event) : State := { s with history := s.history ++ [e] }

/-! ## The outcome of an operation -/

/-- The outcome of a meaning. -/
abbrev Result := Host.Outcome State Fault Refusal

/-- The operation completes and returns nothing. -/
def done (s : State) : Result := .next (s.setReply .none)

/-- The operation completes and returns a byte. -/
def answer (s : State) (b : Byte) : Result := .next (s.setReply (.byte b))

/-- `SignalNmi()`: "one call of the interrupt collaborator's non-maskable-interrupt signal" (R11, R29, R158). It is the
whole of the core's interrupt: no pending bit, nothing saved, nothing to return from (R158, R163). -/
def signalNmi (s : State) : State := s.record .nmiSignal

/-! ## The mapper's banks (R31, R68) -/

/-- The variant: which registers the mapper has. -/
def Mapper.variant (m : Mapper) : Variant :=
  match m.regs with
  | .nrom => .nrom
  | .mmc1 _ => .mmc1
  | .uxrom _ => .uxrom
  | .cnrom _ => .cnrom

/-- `nprg16` (R31). -/
def Mapper.nprg16 (m : Mapper) : Nat := m.prgSize / Config.prgBank
/-- `nchr8` (R31). -/
def Mapper.nchr8 (m : Mapper) : Nat := max m.chrSize Config.chrBank / Config.chrBank
/-- `nchr4` (R31). -/
def Mapper.nchr4 (m : Mapper) : Nat := 2 * m.nchr8

/-- The offset of byte `off` of the bank `select` picks: "`(bank_select mod bank_count) * bank_size + ...`" (R68). -/
def bankOffset (select count size off : Nat) : Nat := (select % count) * size + off

/-- `ChrRead(off)` (R70). -/
def Mapper.chrRead (m : Mapper) (off : Nat) : Byte := m.chr.get off

/-- `ChrWrite(off, d)` (R70): CHR-ROM is read-only storage. -/
def Mapper.chrWrite (m : Mapper) (off : Nat) (d : Byte) : Mapper :=
  if m.chrSize = 0 then { m with chr := m.chr.set off d } else m

/-- The program byte at `a` in the 16 KB bank `select` picks (R68, R78, R84, R89, R95). -/
def Mapper.prgRead (m : Mapper) (select : Nat) (a : Addr) : Byte :=
  m.prg.get (bankOffset select m.nprg16 Config.prgBank (a.toNat % Config.prgBank))

/-! ## The variants' read and write rules (40_mapper.md sections 4 to 7) -/

/-- Two fixed program windows: bank 0, and at $C000 the bank `high` picks (R78, R95). -/
def Mapper.fixedPrgRead (m : Mapper) (high : Nat) (a : Addr) : Byte :=
  m.prgRead (if a.toNat < 0xC000 then 0 else high) a

/-- The bank select of variant 3's $C000 window: R95's, or that of R39's table and R177, which differ with more than two
banks. The spec does not settle which, so the parameter does (log 30). -/
def Mapper.cnromHighSelect (m : Mapper) (cfg : Params) : Nat :=
  match cfg.cnromHighWindow with
  | .bankOne => 1
  | .lastBank => m.nprg16 - 1

/-- Variant 3's program windows (R95, R39, R177). -/
def Mapper.cnromPrgRead (m : Mapper) (cfg : Params) (a : Addr) : Byte := m.fixedPrgRead (m.cnromHighSelect cfg) a

/-- The two program windows of variant 1, as bank numbers (R84). -/
def Mmc1.prgBanks (r : Mmc1) (nprg16 : Nat) : Nat × Nat :=
  let p := (r.prg.extractLsb' 0 4).toNat
  let mode := (r.control.extractLsb' 2 2).toNat
  if mode ≤ 1 then (p / 2 * 2, p / 2 * 2 + 1)
  else if mode = 2 then (0, p)
  else (p, nprg16 - 1)

/-- Read of $8000-$FFFF, variant 1 (R84). -/
def Mapper.mmc1PrgRead (m : Mapper) (r : Mmc1) (a : Addr) : Byte :=
  let banks := r.prgBanks m.nprg16
  m.prgRead (if a.toNat < 0xC000 then banks.1 else banks.2) a

/-- The two graphics windows of variant 1, as 4 KB bank numbers (R85). -/
def Mmc1.chrBanks (r : Mmc1) : Nat × Nat :=
  if r.control.getLsbD 4 then (r.chr0.toNat, r.chr1.toNat)
  else (r.chr0.toNat / 2 * 2, r.chr0.toNat / 2 * 2 + 1)

/-- `Mmc1ChrOff(a)` (R85). -/
def Mapper.mmc1ChrOff (m : Mapper) (r : Mmc1) (a : Addr) : Nat :=
  let banks := r.chrBanks
  bankOffset (if a.toNat < 0x1000 then banks.1 else banks.2) m.nchr4 Config.chrBank4 (a.toNat % Config.chrBank4)

/-- `Mmc1Commit(sel, s)` (R83). -/
def Mmc1.commit (r : Mmc1) (sel : BitVec 2) (s : BitVec 5) : Mmc1 :=
  match sel with
  | 0#2 => { r with control := s }
  | 1#2 => { r with chr0 := s }
  | 2#2 => { r with chr1 := s }
  | _ => { r with prg := s }

/-- The value the serial port holds after shifting in `d[0]`, LSB first (R82). -/
def Mmc1.shiftIn (r : Mmc1) (d : Byte) : BitVec 5 := (r.shift >>> 1) ||| ((d.extractLsb' 0 1).setWidth 5 <<< 4)

/-- A write of the serial load port; `sel = a[14:13]` (R82). -/
def Mmc1.serialWrite (r : Mmc1) (sel : BitVec 2) (d : Byte) : Mmc1 :=
  if d.getLsbD 7 then { r with shift := 0, count := 0, control := r.control ||| 0x0C#5 }
  else if r.count = 4 then { r.commit sel (r.shiftIn d) with shift := 0, count := 0 }
  else { r with shift := r.shiftIn d, count := r.count + 1 }

/-- The program window of variant 2 (R89). -/
def Mapper.uxromPrgRead (m : Mapper) (bank : Byte) (a : Addr) : Byte :=
  m.prgRead (if a.toNat < 0xC000 then bank.toNat else m.nprg16 - 1) a

/-- The graphics window of variant 3, "`(bank_select mod bank_count) * bank_size + (addr mod bank_size)`" (R93). -/
def Mapper.cnromChrOff (m : Mapper) (bank : Byte) (a : Addr) : Nat :=
  bankOffset bank.toNat m.nchr8 Config.chrBank (a.toNat % Config.chrBank)

/-- `UNMAPPED_READ(a)` (R69). -/
def unmappedRead (cfg : Params) (a : Addr) : Byte := Memory.get cfg.unmappedRead a.toNat

/-- Variant 0's read (R76, R78, R69). -/
def Mapper.nromRead (m : Mapper) (cfg : Params) (a : Addr) : Byte :=
  if a.toNat < 0x2000 then m.chrRead a.toNat
  else if 0x8000 ≤ a.toNat then m.fixedPrgRead 1 a
  else unmappedRead cfg a

/-- Variant 1's read (R81, R84, R85, R69). -/
def Mapper.mmc1Read (m : Mapper) (r : Mmc1) (cfg : Params) (a : Addr) : Byte :=
  if a.toNat < 0x2000 then m.chrRead (m.mmc1ChrOff r a)
  else if 0x8000 ≤ a.toNat then m.mmc1PrgRead r a
  else if 0x6000 ≤ a.toNat then r.prgram.get (a.toNat - 0x6000)
  else unmappedRead cfg a

/-- Variant 2's read (R89, R90, R69). -/
def Mapper.uxromRead (m : Mapper) (bank : Byte) (cfg : Params) (a : Addr) : Byte :=
  if a.toNat < 0x2000 then m.chrRead a.toNat
  else if 0x8000 ≤ a.toNat then m.uxromPrgRead bank a
  else unmappedRead cfg a

/-- Variant 3's read (R93, R95, R69). -/
def Mapper.cnromRead (m : Mapper) (bank : Byte) (cfg : Params) (a : Addr) : Byte :=
  if a.toNat < 0x2000 then m.chrRead (m.cnromChrOff bank a)
  else if 0x8000 ≤ a.toNat then m.cnromPrgRead cfg a
  else unmappedRead cfg a

/-- `CartRead(a)`: "the variant's read rule for the range holding `a`" (R63). -/
def Mapper.read (m : Mapper) (cfg : Params) (a : Addr) : Byte :=
  match m.regs with
  | .nrom => m.nromRead cfg a
  | .mmc1 r => m.mmc1Read r cfg a
  | .uxrom bank => m.uxromRead bank cfg a
  | .cnrom bank => m.cnromRead bank cfg a

/-- Variant 0's write (R77, R79, R69). -/
def Mapper.nromWrite (m : Mapper) (a : Addr) (d : Byte) : Mapper :=
  if a.toNat < 0x2000 then m.chrWrite a.toNat d else m

/-- Variant 1's write (R81, R82, R86, R69). -/
def Mapper.mmc1Write (m : Mapper) (r : Mmc1) (a : Addr) (d : Byte) : Mapper :=
  if a.toNat < 0x2000 then m.chrWrite (m.mmc1ChrOff r a) d
  else if 0x8000 ≤ a.toNat then { m with regs := .mmc1 (r.serialWrite (a.extractLsb' 13 2) d) }
  else if 0x6000 ≤ a.toNat then { m with regs := .mmc1 { r with prgram := r.prgram.set (a.toNat - 0x6000) d } }
  else m

/-- Variant 2's write (R88, R90, R69). -/
def Mapper.uxromWrite (m : Mapper) (a : Addr) (d : Byte) : Mapper :=
  if a.toNat < 0x2000 then m.chrWrite a.toNat d
  else if 0x8000 ≤ a.toNat then { m with regs := .uxrom d }
  else m

/-- Variant 3's write (R92, R94, R69). -/
def Mapper.cnromWrite (m : Mapper) (bank : Byte) (a : Addr) (d : Byte) : Mapper :=
  if a.toNat < 0x2000 then m.chrWrite (m.cnromChrOff bank a) d
  else if 0x8000 ≤ a.toNat then { m with regs := .cnrom d }
  else m

/-- `CartWrite(a, d)` (R65). -/
def Mapper.write (m : Mapper) (a : Addr) (d : Byte) : Mapper :=
  match m.regs with
  | .nrom => m.nromWrite a d
  | .mmc1 r => m.mmc1Write r a d
  | .uxrom _ => m.uxromWrite a d
  | .cnrom bank => m.cnromWrite bank a d

/-- The topology the mirroring hint names. -/
def Hint.topology : Hint → Topology
  | .horizontal => .horizontal
  | .vertical => .vertical
  | .fourScreen => .fourScreen

/-- Variant 1's `mirroring()` (R87). -/
def Mmc1.topology (r : Mmc1) : Topology :=
  match r.control.extractLsb' 0 2 with
  | 0#2 => .singleLower
  | 1#2 => .singleUpper
  | 2#2 => .vertical
  | _ => .horizontal

/-- `mirroring()` (R66, R80, R87, R91, R96). -/
def Mapper.mirroring (m : Mapper) : Topology :=
  match m.regs with
  | .mmc1 r => if m.hint = .fourScreen then .fourScreen else r.topology
  | .nrom => m.hint.topology
  | .uxrom _ => m.hint.topology
  | .cnrom _ => m.hint.topology

/-! ## Operations that need the mapper (R156) -/

/-- The variant in the slot. -/
def State.slot (s : State) : Option Variant := s.mapper.map Mapper.variant

/-- Run `f` on the mapper; `NoCartridge` while the slot is empty (R156). -/
def withMapper (s : State) (f : Mapper → Result) : Result :=
  match s.mapper with
  | none => .refused .noCartridge
  | some m => f m

/-- Run `f` on a variant-0 mapper. -/
def withNrom (s : State) (f : Mapper → Result) : Result :=
  withMapper s (fun m => match m.regs with
    | .nrom => f m
    | .mmc1 _ => .refused .otherVariant
    | .uxrom _ => .refused .otherVariant
    | .cnrom _ => .refused .otherVariant)

/-- Run `f` on a variant-1 mapper and its registers. -/
def withMmc1 (s : State) (f : Mapper → Mmc1 → Result) : Result :=
  withMapper s (fun m => match m.regs with
    | .nrom => .refused .otherVariant
    | .mmc1 r => f m r
    | .uxrom _ => .refused .otherVariant
    | .cnrom _ => .refused .otherVariant)

/-- Run `f` on a variant-2 mapper and its bank register. -/
def withUxrom (s : State) (f : Mapper → Byte → Result) : Result :=
  withMapper s (fun m => match m.regs with
    | .nrom => .refused .otherVariant
    | .mmc1 _ => .refused .otherVariant
    | .uxrom bank => f m bank
    | .cnrom _ => .refused .otherVariant)

/-- Run `f` on a variant-3 mapper and its bank register. -/
def withCnrom (s : State) (f : Mapper → Byte → Result) : Result :=
  withMapper s (fun m => match m.regs with
    | .nrom => .refused .otherVariant
    | .mmc1 _ => .refused .otherVariant
    | .uxrom _ => .refused .otherVariant
    | .cnrom bank => f m bank)

/-! ## The PPU bus (R41) -/

/-- The palette byte at a bus address in $3F00-$3FFF (R41, R43). -/
def paletteRead (s : State) (a : BusAddr) : Byte := s.palette.get (palIndex a)

/-- `PpuBusRead(a)` (R41); none: it needs the mapper and there is none (R156). -/
def busRead (s : State) (a : BusAddr) : Option Byte :=
  if a.toNat ≤ 0x1FFF then s.mapper.map (fun m => m.read s.cfg (a.setWidth 16))
  else if a.toNat ≤ 0x3EFF then s.mapper.map (fun m => s.ntram.get (ntIndex a m.mirroring))
  else some (paletteRead s a)

/-- `PpuBusWrite(a, val)` (R41); none: it needs the mapper and there is none (R156). -/
def busWrite (s : State) (a : BusAddr) (val : Byte) : Option State :=
  if a.toNat ≤ 0x1FFF then s.mapper.map (fun m => s.setMapper (some (m.write (a.setWidth 16) val)))
  else if a.toNat ≤ 0x3EFF then s.mapper.map (fun m => s.setNtram (s.ntram.set (ntIndex a m.mirroring) val))
  else some (s.setPalette (s.palette.set (palIndex a) val))

/-- An operation whose bus accesses need a mapper that is not there is refused with `NoCartridge` (R156). -/
def orNoCartridge {α : Type} (r : Option α) (f : α → Result) : Result :=
  match r with
  | none => .refused .noCartridge
  | some x => f x

/-! ## The io latch (R98) -/

def State.latch (s : State) (b : Byte) : State := s.setPpu { s.ppu with ioLatch := b }

/-- A window read at $2000-$3FFF returns `r`, "after computing `r`" latching it (R98). -/
def windowRead (s : State) (r : Byte) : Result := answer (s.latch r) r

/-! ## Nametable RAM's size (R27, R173) -/

/-- 4096 bytes when the mapper reports `FOUR_SCREEN`, else 2048. -/
def ntramSizeOf (slot : Option Mapper) : Nat :=
  match slot with
  | none => Config.ntramSize
  | some m => if m.mirroring = .fourScreen then Config.ntramSizeFour else Config.ntramSize

/-! ## OAM DMA (R116) -/

/-- `CpuMemRead(a)`, the host's oracle; "for `a` >= $4020 that is `CartRead(a)`" (R171) where there is a mapper (log 6). -/
def cpuMemRead (s : State) (a : Addr) : Byte :=
  if 0x4020 ≤ a.toNat then
    match s.mapper with
    | none => s.cpuMem.get a.toNat
    | some m => m.read s.cfg a
  else s.cpuMem.get a.toNat

/-- The first OAM index a DMA writes (R116, `DMA_DEST_START`). -/
def dmaStart (s : State) : Nat :=
  match s.cfg.dmaDestStart with
  | .oamaddr => s.ppu.oamAddr.toNat
  | .zero => 0

/-- The transfer's writes at byte indices `is`, in that order. -/
def dmaCopy (s : State) (page : Byte) (is : List Nat) (oam : Memory) : Memory :=
  is.foldl (fun m i => m.set ((dmaStart s + i) % 256) (cpuMemRead s (dmaSource page (BitVec.ofNat 8 i)))) oam

end Sys2Proof.Machine
end

