-- ==== Sys2Proof/Machine/Flags.lean ====
section
/-! DEFINITION. Every computation of the status flags (R17, R18): the status byte, the two flag events of the frame, the
clear of a status read, and the two flags the rendering sets. -/

namespace Sys2Proof.Machine

/-- The byte a status read returns (R17, R103). -/
def statusByte (p : Ppu) : Byte :=
  ((BitVec.ofBool p.vblank).setWidth 8 <<< 7) ||| ((BitVec.ofBool p.s0hit).setWidth 8 <<< 6)
    ||| ((BitVec.ofBool p.overflow).setWidth 8 <<< 5) ||| (p.ioLatch &&& 0x1F#8)

/-- A status read's side effects: clears the vblank flag and the write toggle (R103). -/
def statusReadEffect (p : Ppu) : Ppu := { p with vblank := false, w := false }

/-- The event at (241, 1): the vblank flag, then the NMI if enabled (R123). -/
def vblankStart (s : State) : State :=
  let s := s.setPpu { s.ppu with vblank := true }
  if ctrlNmi s.ppu.ctrl then signalNmi s else s

/-- The event at (261, 1): all three flags fall (R124). -/
def clearFlags (s : State) : State := s.setPpu { s.ppu with vblank := false, s0hit := false, overflow := false }

/-- The flag events of a tick (R121 step 1). -/
def flagEvents (s : State) : State :=
  if s.ppu.scanline = 241 ∧ s.ppu.dot = 1 then vblankStart s
  else if s.ppu.scanline = 261 ∧ s.ppu.dot = 1 then clearFlags s
  else s

/-- When a pixel sets the sprite-0 hit flag (R150): `fromUnit0` says that unit 0's pixel is the one `SprPixel` returned. -/
def sprite0Hit (s : State) (x : Nat) (p sp : BitVec 2) (fromUnit0 : Bool) : Bool :=
  fromUnit0 && s.ppu.spr0Line && p != 0#2 && sp != 0#2 && maskShowBg s.ppu.mask && maskShowSpr s.ppu.mask
    && !(s.cfg.sprite0X255Excluded && x == 255)

/-- Under `NMI_ON_CTRL_ENABLE`, a PPUCTRL write that turns `ctrl.nmi` on during vblank signals NMI (R101). -/
def nmiOnCtrlWrite (cfg : Params) (p : Ppu) (d : Byte) : Bool :=
  cfg.nmiOnCtrlEnable && !ctrlNmi p.ctrl && ctrlNmi d && p.vblank

end Sys2Proof.Machine
end

