-- ==== Sys2Proof/Machine/Cnrom.lean ====
section
/-! DEFINITION. Variant 3, CNROM: switchable graphics bank, fixed program (40_mapper.md section 7). -/

namespace Sys2Proof.Machine

/-- Write of $8000-$FFFF: the whole byte is the bank register, "any address within that range" (R92). -/
def execCnromWBank (_o : BitVec 15) (d : Byte) (s : State) : Result :=
  withCnrom s (fun m _ => done (s.setMapper (some { m with regs := .cnrom d })))

/-- Read of $0000-$1FFF (R93). -/
def execCnromChrR (o : BitVec 13) (s : State) : Result :=
  withCnrom s (fun m bank => answer s (m.chrRead (m.cnromChrOff bank (chrAddr o))))

/-- Write of $0000-$1FFF (R94). -/
def execCnromChrW (o : BitVec 13) (d : Byte) (s : State) : Result :=
  withCnrom s (fun m bank => done (s.setMapper (some (m.chrWrite (m.cnromChrOff bank (chrAddr o)) d))))

/-- Read of $8000-$FFFF: fixed (R95, R39; log 30). -/
def execCnromPrgR (o : BitVec 15) (s : State) : Result :=
  withCnrom s (fun m _ => answer s (m.cnromPrgRead s.cfg (prgAddr o)))

/-- Peek of any address (R64). -/
def execCnromPeek (a : Addr) (s : State) : Result := withCnrom s (fun m bank => answer s (m.cnromRead bank s.cfg a))

/-- Read of an unmapped address (R96, R69). -/
def execCnromUnmappedR (a : Addr) (s : State) : Result := withCnrom s (fun _ _ => answer s (unmappedRead s.cfg a))

/-- Write of an unmapped address: ignored (R96, R69). -/
def execCnromUnmappedW (_a : Addr) (_d : Byte) (s : State) : Result := withCnrom s (fun _ _ => done s)

end Sys2Proof.Machine
end

