-- ==== Sys2Proof/Machine/Lifecycle.lean ====
section
/-! DEFINITION. The PPU's lifecycle operations and queries, and the mapper's (70_reset_and_hazards.md, 40_mapper.md
sections 1 and 3, 41_ppu_registers.md section 6). -/

namespace Sys2Proof.Machine

/-! ## The PPU -/

/-- What `power_cycle()` and `reset()` both clear: `ctrl`, `mask`, `t`, `x`, `w`, `read_buffer`, the position,
`odd_frame` and the pipeline state (R175). -/
def warmReset (p : Ppu) : Ppu :=
  { p with
    ctrl := 0, mask := 0, t := 0, x := 0, w := false, readBuffer := 0, scanline := 0, dot := 0, oddFrame := false,
    bg := { ntLatch := 0, atLatch := 0, ptLoLatch := 0, ptHiLatch := 0, bgShiftLo := 0, bgShiftHi := 0,
            atShiftLo := 0, atShiftHi := 0 },
    soamCount := 0, spr0Next := false, unitCount := 0, spr0Line := false,
    units := Vector.replicate 8 { x := 0, attr := 0, lo := 0, hi := 0 } }

/-- `power_cycle()` "resets all registers, counters, and latches ... and clears the framebuffer" (R174). -/
def powerCycle (p : Ppu) : Ppu :=
  { warmReset p with
    vblank := false, s0hit := false, overflow := false, oamAddr := 0, v := 0, ioLatch := 0, frameCount := 0,
    framebuffer := [] }

/-- `power_cycle()` (R174): no memory of the host, no mapper register, no event (R176). -/
def execPpuPowerCycle (s : State) : Result := done (s.setPpu (powerCycle s.ppu))

/-- `reset()` (R175): the warm subset. -/
def execPpuReset (s : State) : Result := done (s.setPpu (warmReset s.ppu))

/-- `framebuffer()` (R118). -/
def execPpuFramebuffer (s : State) : Result := .next (s.setReply (.picture s.ppu.framebuffer))

/-- `frame_count()` (R119). -/
def execPpuFrameCount (s : State) : Result := .next (s.setReply (.frames s.ppu.frameCount))

/-! ## The factory (R71 to R75, R154, R157) -/

/-- The validation of R71. -/
def Metadata.validates (md : Metadata) : Bool :=
  md.valid && decide (md.prgSize ≠ 0) && decide (md.prgSize % Config.prgBank = 0)
    && decide (md.chrSize % Config.chrBank = 0) && decide (md.prgBytes.len = md.prgSize)
    && decide (md.chrBytes.len = md.chrSize)

/-- A mapper of the given registers, its bank arrays "sized from metadata"; CHR-RAM starts all 0x00 (R75, R31). -/
def Metadata.construct (md : Metadata) (regs : MapperRegs) : Mapper :=
  { prg := md.prgBytes.bytes, prgSize := md.prgSize, chr := if md.chrSize = 0 then [] else md.chrBytes.bytes,
    chrSize := md.chrSize, hint := md.hint, regs := regs }

/-- Variant 1's registers and PRG-RAM at construction (R33, R31). -/
def Mmc1.initial : Mmc1 := { shift := 0, count := 0, control := 0x0C#5, chr0 := 0, chr1 := 0, prg := 0, prgram := [] }

/-- The registers of the variant an identifier names; none for 4 and for 5 to 255 (R72, R73, R74). -/
def regsOf (id : Byte) : Option MapperRegs :=
  match id with
  | 0#8 => some .nrom
  | 1#8 => some (.mmc1 Mmc1.initial)
  | 2#8 => some (.uxrom 0#8)
  | 3#8 => some (.cnrom 0#8)
  | _ => none

/-- `Factory(meta)`: validation first, then the identifier (R71, R72, R157). -/
def factory (md : Metadata) : FactoryOutcome × Option Mapper :=
  if md.validates then
    match regsOf md.mapperId with
    | some regs => (.ok, some (md.construct regs))
    | none => (.unsupported, none)
  else (.invalid, none)

/-- The slot and nametable RAM after a successful factory (R173): the RAM is sized to the new mapper's topology. -/
def install (s : State) (m : Mapper) : State :=
  (s.setMapper (some m)).setNtram (Cells.truncate (ntramSizeOf (some m)) s.ntram)

/-- `MAP.NEW #id` (R173): the factory on the loader's metadata with `mapper_id = id`. The metadata itself is "immutable
once loaded" (R30). -/
def execMapFactory (id : Byte) (s : State) : Result :=
  match factory { s.cartridge with mapperId := id } with
  | (o, some m) => .next ((install s m).setReply (.factory o))
  | (o, none) => .next (s.setReply (.factory o))

/-! ## The mapper's tick and topology -/

/-- The mapper's `tick()`: "a no-op for passive (non-clocked) bank-switching hardware" (R67). -/
def execMapTick (s : State) : Result := withMapper s (fun _ => done s)

/-- `mirroring()` (R66). -/
def execMapMirroring (s : State) : Result := withMapper s (fun m => .next (s.setReply (.topology m.mirroring)))

end Sys2Proof.Machine
end

