-- ==== Sys2Proof/Machine/Mmc1.lean ====
section
/-! DEFINITION. Variant 1, MMC1: serial-loaded program and graphics banking (40_mapper.md section 5). -/

namespace Sys2Proof.Machine

/-- The mapper with new registers. -/
def Mapper.setMmc1 (m : Mapper) (r : Mmc1) : Mapper := { m with regs := .mmc1 r }

/-- A write of the serial load port in the quarter `sel` of $8000-$FFFF (R82). -/
def serialPortWrite (sel : BitVec 2) (d : Byte) (s : State) : Result :=
  withMmc1 s (fun m r => done (s.setMapper (some (m.setMmc1 (r.serialWrite sel d)))))

/-- Read of PRG-RAM (R81). -/
def execMmc1PrgramR (o : BitVec 13) (s : State) : Result := withMmc1 s (fun _ r => answer s (r.prgram.get o.toNat))

/-- Write of PRG-RAM, always enabled (R81). -/
def execMmc1PrgramW (o : BitVec 13) (d : Byte) (s : State) : Result :=
  withMmc1 s (fun m r => done (s.setMapper (some (m.setMmc1 { r with prgram := r.prgram.set o.toNat d }))))

/-- Write of $8000-$9FFF: the serial port; a fifth write commits to `control` (R82, R83). -/
def execMmc1WCtrl (_o : BitVec 13) (d : Byte) (s : State) : Result := serialPortWrite 0#2 d s

/-- Write of $A000-$BFFF: a fifth write commits to `chr0` (R82, R83). -/
def execMmc1WChr0 (_o : BitVec 13) (d : Byte) (s : State) : Result := serialPortWrite 1#2 d s

/-- Write of $C000-$DFFF: a fifth write commits to `chr1` (R82, R83). -/
def execMmc1WChr1 (_o : BitVec 13) (d : Byte) (s : State) : Result := serialPortWrite 2#2 d s

/-- Write of $E000-$FFFF: a fifth write commits to `prg` (R82, R83). -/
def execMmc1WPrg (_o : BitVec 13) (d : Byte) (s : State) : Result := serialPortWrite 3#2 d s

/-- Read of $8000-$BFFF (R84). -/
def execMmc1PrgLoR (o : BitVec 14) (s : State) : Result :=
  withMmc1 s (fun m r => answer s (m.mmc1PrgRead r (prgLoAddr o)))

/-- Read of $C000-$FFFF (R84). -/
def execMmc1PrgHiR (o : BitVec 14) (s : State) : Result :=
  withMmc1 s (fun m r => answer s (m.mmc1PrgRead r (prgHiAddr o)))

/-- Read of $0000-$0FFF (R85). -/
def execMmc1ChrLoR (o : BitVec 12) (s : State) : Result :=
  withMmc1 s (fun m r => answer s (m.chrRead (m.mmc1ChrOff r (chrLoAddr o))))

/-- Read of $1000-$1FFF (R85). -/
def execMmc1ChrHiR (o : BitVec 12) (s : State) : Result :=
  withMmc1 s (fun m r => answer s (m.chrRead (m.mmc1ChrOff r (chrHiAddr o))))

/-- Write of $0000-$1FFF (R86). -/
def execMmc1ChrW (o : BitVec 13) (d : Byte) (s : State) : Result :=
  withMmc1 s (fun m r => done (s.setMapper (some (m.chrWrite (m.mmc1ChrOff r (chrAddr o)) d))))

/-- Peek of any address (R64). -/
def execMmc1Peek (a : Addr) (s : State) : Result := withMmc1 s (fun m r => answer s (m.mmc1Read r s.cfg a))

/-- Read of an unmapped address (R69). -/
def execMmc1UnmappedR (a : Addr) (s : State) : Result := withMmc1 s (fun _ _ => answer s (unmappedRead s.cfg a))

/-- Write of an unmapped address: ignored (R69). -/
def execMmc1UnmappedW (_a : Addr) (_d : Byte) (s : State) : Result := withMmc1 s (fun _ _ => done s)

end Sys2Proof.Machine
end

