-- ==== Sys2Proof/Machine/Nrom.lean ====
section
/-! DEFINITION. Variant 0, NROM: fixed program, fixed graphics (40_mapper.md section 4). -/

namespace Sys2Proof.Machine

/-- Read of the graphics window (R76). -/
def execNromChrR (o : BitVec 13) (s : State) : Result :=
  withNrom s (fun m => answer s (m.chrRead (chrAddr o).toNat))

/-- Write of the graphics window (R77). -/
def execNromChrW (o : BitVec 13) (d : Byte) (s : State) : Result :=
  withNrom s (fun m => done (s.setMapper (some (m.chrWrite (chrAddr o).toNat d))))

/-- Read of the program windows (R78). -/
def execNromPrgR (o : BitVec 15) (s : State) : Result :=
  withNrom s (fun m => answer s (m.fixedPrgRead 1 (prgAddr o)))

/-- Write of the program windows: ignored (R79). -/
def execNromPrgW (_o : BitVec 15) (_d : Byte) (s : State) : Result := withNrom s (fun _ => done s)

/-- Peek of any address: what a read returns, changing nothing (R64). -/
def execNromPeek (a : Addr) (s : State) : Result := withNrom s (fun m => answer s (m.nromRead s.cfg a))

/-- Read of an unmapped address (R69). -/
def execNromUnmappedR (a : Addr) (s : State) : Result := withNrom s (fun _ => answer s (unmappedRead s.cfg a))

/-- Write of an unmapped address: ignored (R69, R79). -/
def execNromUnmappedW (_a : Addr) (_d : Byte) (s : State) : Result := withNrom s (fun _ => done s)

end Sys2Proof.Machine
end

