-- ==== Sys2Proof/Machine/Pbus.lean ====
section
/-! DEFINITION. Host accesses of the PPU bus (20_memory.md R41): the `PBUS` target. A read has no side effect, so it and
the peek differ in nothing (R41, R46). -/

namespace Sys2Proof.Machine

/-- A read or peek of the PPU bus (R41). -/
def busAnswer (s : State) (a : BusAddr) : Result := orNoCartridge (busRead s a) (fun b => answer s b)

/-- A write of the PPU bus (R41). -/
def busStore (s : State) (a : BusAddr) (d : Byte) : Result := orNoCartridge (busWrite s a d) done

/-- Read of $0000-$1FFF, the pattern tables, through the mapper (R41). -/
def execPbusPtR (o : BitVec 13) (s : State) : Result := busAnswer s (ptBusAddr o)

/-- Write of $0000-$1FFF, the pattern tables, through the mapper (R41). -/
def execPbusPtW (o : BitVec 13) (d : Byte) (s : State) : Result := busStore s (ptBusAddr o) d

/-- Peek of $0000-$1FFF, the pattern tables, through the mapper (R41). -/
def execPbusPtP (o : BitVec 13) (s : State) : Result := busAnswer s (ptBusAddr o)

/-- Read of $3F00-$3FFF, palette RAM (R41). -/
def execPbusPalR (o : BitVec 8) (s : State) : Result := busAnswer s (palBusAddr o)

/-- Write of $3F00-$3FFF, palette RAM (R41). -/
def execPbusPalW (o : BitVec 8) (d : Byte) (s : State) : Result := busStore s (palBusAddr o) d

/-- Peek of $3F00-$3FFF, palette RAM (R41). -/
def execPbusPalP (o : BitVec 8) (s : State) : Result := busAnswer s (palBusAddr o)

/-- Read of $2000-$3EFF, nametable RAM through the topology (R41). -/
def execPbusNtR (o : BitVec 13) (s : State) : Result := busAnswer s (ntBusAddr o)

/-- Write of $2000-$3EFF, nametable RAM through the topology (R41). -/
def execPbusNtW (o : BitVec 13) (d : Byte) (s : State) : Result := busStore s (ntBusAddr o) d

/-- Peek of $2000-$3EFF, nametable RAM through the topology (R41). -/
def execPbusNtP (o : BitVec 13) (s : State) : Result := busAnswer s (ntBusAddr o)

end Sys2Proof.Machine
end

