-- ==== Sys2Proof/Machine/Pixel.lean ====
section
/-! DEFINITION. Pixel output (43_ppu_render.md section 5). -/

namespace Sys2Proof.Machine

/-- Two bits as a colour index, `(hi << 1) | lo`. -/
def twoBits (hi lo : Bool) : BitVec 2 := BitVec.ofBool hi ++ BitVec.ofBool lo

/-- `BgPixel(x)`: `(p, pal)` (R148). -/
def bgPixel (p : Ppu) (x : Nat) : BitVec 2 × BitVec 2 :=
  if !maskShowBg p.mask || (decide (x < 8) && !maskBgLeft p.mask) then (0#2, 0#2)
  else
    let j := 15 - p.x.toNat
    (twoBits (p.bg.bgShiftHi.getLsbD j) (p.bg.bgShiftLo.getLsbD j),
     twoBits (p.bg.atShiftHi.getLsbD j) (p.bg.atShiftLo.getLsbD j))

/-- The colour index of a unit at column `x`; 0 is transparent or not there (R149). -/
def unitPixel (u : SpriteUnit) (x : Nat) : BitVec 2 :=
  if u.x.toNat ≤ x ∧ x ≤ u.x.toNat + 7 then
    let off := x - u.x.toNat
    let b := if u.attr.getLsbD 6 then off else 7 - off
    twoBits (u.hi.getLsbD b) (u.lo.getLsbD b)
  else 0#2

/-- A sprite pixel: its colour index, the unit's number and its attributes. -/
structure SprPixel where
  sp : BitVec 2
  i : Nat
  attr : Byte
deriving DecidableEq, Repr

/-- The first unit with an opaque pixel at `x`, the units numbered from `i` (R149). -/
def firstOpaque (x : Nat) : Nat → List SpriteUnit → Option SprPixel
  | _, [] => none
  | i, u :: us => if unitPixel u x ≠ 0#2 then some ⟨unitPixel u x, i, u.attr⟩ else firstOpaque x (i + 1) us

/-- `SprPixel(x)` (R149); none: no sprite pixel (`sp = 0`). -/
def sprPixel (p : Ppu) (x : Nat) : Option SprPixel :=
  if !maskShowSpr p.mask || (decide (x < 8) && !maskSprLeft p.mask) then none
  else firstOpaque x 0 (p.units.toList.take p.unitCount)

/-- `Compose(p, pal, sp, i)` (R151). -/
def compose (p pal : BitVec 2) (spr : Option SprPixel) : BusAddr :=
  match spr with
  | none => if p = 0#2 then backdropAddr else bgPaletteAddr pal p
  | some q => if p = 0#2 || !q.attr.getLsbD 5 then sprPaletteAddr q.attr q.sp else bgPaletteAddr pal p

/-- The pixel a palette byte gives: masked to 6 bits, then greyscale, joined with the emphasis bits (R147, R152). -/
def colourOut (mask : Byte) (b : Byte) : Pixel :=
  let colour := b &&& 0x3F#8
  let colour := if maskGrey mask then colour &&& 0x30#8 else colour
  ((maskEmphasis mask).setWidth 9 <<< 6) ||| colour.setWidth 9

/-- Store the pixel of the palette address at (line, x). The address is in $3F00-$3F1F, so "the read touches only palette
RAM" and needs no mapper (R147). -/
def storePixel (s : State) (line x : Nat) (a : BusAddr) : State :=
  s.setPpu { s.ppu with framebuffer := Framebuffer.set s.ppu.framebuffer line x (colourOut s.ppu.mask (paletteRead s a)) }

/-- Set the sprite-0 hit flag if this pixel is one (R150). -/
def hitSprite0 (s : State) (x : Nat) (p : BitVec 2) (spr : Option SprPixel) : State :=
  match spr with
  | none => s
  | some q => if sprite0Hit s x p q.sp (q.i == 0) then s.setPpu { s.ppu with s0hit := true } else s

/-- The pixel of column `x` with rendering enabled (R147). -/
def renderPixel (s : State) (line x : Nat) : State :=
  let bg := bgPixel s.ppu x
  let spr := sprPixel s.ppu x
  storePixel (hitSprite0 s x bg.1 spr) line x (compose bg.1 bg.2 spr)

/-- Pixel output of a tick at (line, d); `en` is `rendering_enabled` at the start of the tick (R121 step 3, R147). -/
def pixelStep (en : Bool) (line d : Nat) (s : State) : State :=
  if line < 240 ∧ 1 ≤ d ∧ d ≤ 256 then
    if en then renderPixel s line (d - 1) else storePixel s line (d - 1) backdropAddr
  else s

end Sys2Proof.Machine
end

