-- ==== Sys2Proof/Machine/Render.lean ====
section
/-! DEFINITION. The background pipeline (43_ppu_render.md section 2): the per-dot background step of a tick. -/

namespace Sys2Proof.Machine

def State.setBg (s : State) (b : Background) : State := s.setPpu { s.ppu with bg := b }
def State.setV (s : State) (v : BitVec 15) : State := s.setPpu { s.ppu with v := v }

/-- `BgShift` (R133). -/
def Background.shift (b : Background) : Background :=
  { b with bgShiftLo := b.bgShiftLo <<< 1, bgShiftHi := b.bgShiftHi <<< 1, atShiftLo := b.atShiftLo <<< 1,
           atShiftHi := b.atShiftHi <<< 1 }

/-- A shifter with a new low byte (R134). -/
def withLowByte (r : BitVec 16) (b : Byte) : BitVec 16 := (r &&& 0xFF00#16) ||| b.setWidth 16

/-- One palette bit as a byte of eight copies (R134). -/
def spread (b : Bool) : Byte := if b then 0xFF#8 else 0x00#8

/-- `BgReload` (R134). -/
def Background.reload (b : Background) : Background :=
  { b with bgShiftLo := withLowByte b.bgShiftLo b.ptLoLatch, bgShiftHi := withLowByte b.bgShiftHi b.ptHiLatch,
           atShiftLo := withLowByte b.atShiftLo (spread (b.atLatch.getLsbD 0)),
           atShiftHi := withLowByte b.atShiftHi (spread (b.atLatch.getLsbD 1)) }

/-- `FetchNT` (R135). -/
def fetchNT (s : State) : Option State :=
  (busRead s (ntFetchAddr s.ppu.v)).map (fun b => s.setBg { s.ppu.bg with ntLatch := b })

/-- `FetchAT` (R136). -/
def fetchAT (s : State) : Option State :=
  (busRead s (atFetchAddr s.ppu.v)).map (fun b => s.setBg { s.ppu.bg with atLatch := atBits s.ppu.v b })

/-- The pattern fetch's address, low plane. -/
def ptAddr (s : State) : BusAddr := ptFetchAddr s.ppu.ctrl s.ppu.bg.ntLatch s.ppu.v

/-- `FetchPTLo` (R137). -/
def fetchPTLo (s : State) : Option State :=
  (busRead s (ptAddr s)).map (fun b => s.setBg { s.ppu.bg with ptLoLatch := b })

/-- `FetchPTHi` (R137). -/
def fetchPTHi (s : State) : Option State :=
  (busRead s (ptAddr s + 8#14)).map (fun b => s.setBg { s.ppu.bg with ptHiLatch := b })

/-- The dots that shift (R132). -/
def shiftDot (d : Nat) : Bool := (decide (2 ≤ d) && decide (d ≤ 257)) || (decide (322 ≤ d) && decide (d ≤ 337))

/-- The dots that reload the shifters (R132). -/
def reloadDot (d : Nat) : Bool :=
  ((decide (9 ≤ d) && decide (d ≤ 257)) || (decide (329 ≤ d) && decide (d ≤ 337))) && d % 8 == 1

/-- The dots of the fetch groups (R132). -/
def groupDot (d : Nat) : Bool := (decide (1 ≤ d) && decide (d ≤ 256)) || (decide (321 ≤ d) && decide (d ≤ 336))

/-- The work of one dot of a fetch group, by its place in the group of eight (R132). -/
def groupStep (place : Nat) (s : State) : Option State :=
  match place with
  | 0 => fetchNT s
  | 2 => fetchAT s
  | 4 => fetchPTLo s
  | 6 => fetchPTHi s
  | 7 => some (s.setV (incX s.ppu.v))
  | _ => some s

/-- Shift, then reload (R132, R134). -/
def shiftAndReload (d : Nat) (s : State) : State :=
  let s := if shiftDot d then s.setBg s.ppu.bg.shift else s
  if reloadDot d then s.setBg s.ppu.bg.reload else s

/-- The fetch group's work, where the dot has any (R132). -/
def groupWork (d : Nat) (s : State) : Option State := if groupDot d then groupStep ((d - 1) % 8) s else some s

/-- `IncY` at dot 256, then `CopyX` at dot 257 (R132). -/
def scrollWork (d : Nat) (s : State) : State :=
  let s := if d = 256 then s.setV (incY s.ppu.v) else s
  if d = 257 then s.setV (copyX s.ppu.t s.ppu.v) else s

/-- The two "unused nametable fetches" (R132). -/
def unusedFetch (d : Nat) (s : State) : Option State := if d = 337 ∨ d = 339 then fetchNT s else some s

/-- `CopyY` on the pre-render line (R132, R141). -/
def verticalCopy (line d : Nat) (s : State) : State :=
  if line = 261 ∧ 280 ≤ d ∧ d ≤ 304 then s.setV (copyY s.ppu.t s.ppu.v) else s

/-- `bg_step(s, d)` (R132), the sub-steps in order. None: a fetch needs the mapper and there is none (R155). -/
def bgStep (line d : Nat) (s : State) : Option State :=
  ((groupWork d (shiftAndReload d s)).bind (fun s => unusedFetch d (scrollWork d s))).map (verticalCopy line d)

end Sys2Proof.Machine
end

