-- ==== Sys2Proof/Machine/Sprites.lean ====
section
/-! DEFINITION. The sprite pipeline (43_ppu_render.md section 4): clearing secondary OAM, evaluation, and the load of the
sprite units. -/

namespace Sys2Proof.Machine

/-- Secondary OAM with every byte 0xFF (R143). -/
def soamCleared : Memory := (List.range Config.soamSize).map (fun i => (i, 0xFF#8))

/-- The dot-64 clear of secondary OAM (R143). -/
def clearSoam (s : State) : State := s.setSoam soamCleared

/-! ## Evaluation (R144) -/

/-- What the scan has found so far. -/
structure Evaluation where
  /-- sprites copied -/
  n : Nat
  soam : Memory
  spr0 : Bool
  overflow : Bool
deriving DecidableEq, Repr

/-- Sprite at `y` is on the line after `line`: `0 <= line - y < h` in signed arithmetic (R144). -/
def spriteInRange (h line : Nat) (y : Byte) : Bool := decide (y.toNat ≤ line) && decide (line < y.toNat + h)

/-- The four bytes of OAM sprite `k` into secondary-OAM slot `n` (R144). -/
def copySprite (oam soam : Memory) (k n : Nat) : Memory :=
  (((soam.set (4 * n) (oam.get (4 * k))).set (4 * n + 1) (oam.get (4 * k + 1))).set (4 * n + 2)
    (oam.get (4 * k + 2))).set (4 * n + 3) (oam.get (4 * k + 3))

/-- The scan over the sprites `ks`, in that order; it stops at a ninth sprite in range (R144). -/
def evalScan (h line : Nat) (oam : Memory) : List Nat → Evaluation → Evaluation
  | [], e => e
  | k :: ks, e =>
    if spriteInRange h line (oam.get (4 * k)) then
      if e.n < 8 then
        evalScan h line oam ks
          { e with n := e.n + 1, soam := copySprite oam e.soam k e.n, spr0 := e.spr0 || k == 0 }
      else { e with overflow := true }
    else evalScan h line oam ks e

/-- Sprite evaluation for the next scanline, in one step (R144). -/
def evaluateSprites (s : State) : State :=
  let e := evalScan (spriteHeight s.ppu.ctrl) s.ppu.scanline s.oam (List.range 64)
    { n := 0, soam := s.soam, spr0 := false, overflow := s.ppu.overflow }
  (s.setSoam e.soam).setPpu { s.ppu with soamCount := e.n, spr0Next := e.spr0, overflow := e.overflow }

/-! ## Loading the units (R145, R146) -/

/-- The pattern address, low plane, of the sprite in secondary-OAM slot `i` (R145). -/
def unitFetchAddr (s : State) (i : Nat) : BusAddr :=
  let y := s.soam.get (4 * i)
  let tile := s.soam.get (4 * i + 1)
  let attr := s.soam.get (4 * i + 2)
  spriteFetchAddr s.ppu.ctrl tile (spriteRow (spriteHeight s.ppu.ctrl) s.ppu.scanline y attr)

/-- The unit of the sprite in secondary-OAM slot `i` (R145). -/
def loadUnit (s : State) (i : Nat) : Option SpriteUnit :=
  let a := unitFetchAddr s i
  (busRead s a).bind (fun lo => (busRead s (a + 8#14)).map (fun hi =>
    { x := s.soam.get (4 * i + 3), attr := s.soam.get (4 * i + 2), lo := lo, hi := hi }))

/-- Load the units `is` in that order. -/
def loadUnits (s : State) : List Nat → Vector SpriteUnit 8 → Option (Vector SpriteUnit 8)
  | [], us => some us
  | i :: is, us => (loadUnit s i).bind (fun u => loadUnits s is (us.setIfInBounds i u))

/-- The load at dot 257 with rendering enabled (R145). None: it needs the mapper and there is none (R155). -/
def loadSprites (s : State) : Option State :=
  (loadUnits s (List.range s.ppu.soamCount) s.ppu.units).map (fun us =>
    s.setPpu { s.ppu with units := us, unitCount := s.ppu.soamCount, spr0Line := s.ppu.spr0Next })

/-- `SprEmpty` (R146). -/
def sprEmpty (s : State) : State := s.setPpu { s.ppu with unitCount := 0, spr0Line := false }

/-- The sprite pipeline's work of a tick at (line, d); `en` is `rendering_enabled` at the start of the tick (R121 step 4,
R131, R143 to R146). -/
def spriteStep (en : Bool) (line d : Nat) (s : State) : Option State :=
  if line < 240 then
    if d = 64 ∧ en = true then some (clearSoam s)
    else if d = 256 ∧ en = true then some (evaluateSprites s)
    else if d = 257 then if en then loadSprites s else some (sprEmpty s)
    else some s
  else if line = 261 ∧ d = 257 then some (sprEmpty s)
  else some s

end Sys2Proof.Machine
end

