-- ==== Sys2Proof/Machine/Tick.lean ====
section
/-! DEFINITION. The PPU timing state machine (42_ppu_timing.md): one tick. -/

namespace Sys2Proof.Machine

/-- The background pipeline's part of a tick (R121 step 2). -/
def backgroundStep (en : Bool) (line d : Nat) (s : State) : Option State :=
  if (line < 240 ∨ line = 261) ∧ en = true then bgStep line d s else some s

/-- `DotWork(s, d)` (R121), the four steps in order. None: a rendering fetch needs the mapper and there is none. -/
def dotWork (s : State) : Option State :=
  let en := renderingEnabled s.ppu.mask
  let line := s.ppu.scanline
  let d := s.ppu.dot
  (backgroundStep en line d (flagEvents s)).bind (fun s => spriteStep en line d (pixelStep en line d s))

/-- The position wraps to (0, 0): a frame is complete (R126). -/
def frameEnd (p : Ppu) : Ppu :=
  { p with scanline := 0, dot := 0, frameCount := p.frameCount + 1, oddFrame := !p.oddFrame }

/-- The odd-frame skip applies (R126, R127). -/
def skipsDot (cfg : Params) (en : Bool) (p : Ppu) : Bool :=
  p.scanline == 261 && p.dot == 339 && cfg.oddFrameSkip && p.oddFrame && en

/-- `Advance()` (R126). -/
def advance (cfg : Params) (en : Bool) (p : Ppu) : Ppu :=
  if skipsDot cfg en p then frameEnd p
  else if p.dot = 340 then
    if p.scanline = 261 then frameEnd p else { p with dot := 0, scanline := p.scanline + 1 }
  else { p with dot := p.dot + 1 }

/-- `tick()` (R120): the work of the current position, then the advance. `rendering_enabled` "is the value read at the
start of the tick" (R126). -/
def tick (s : State) : Option State :=
  (dotWork s).map (fun t => t.setPpu (advance s.cfg (renderingEnabled s.ppu.mask) t.ppu))

/-- `PPU.TICK` (R120); refused with `NoCartridge` when a rendering fetch needs the mapper and there is none (R155). -/
def execPpuTick (s : State) : Result := orNoCartridge (tick s) done

end Sys2Proof.Machine
end

