-- ==== Sys2Proof/Machine/Uxrom.lean ====
section
/-! DEFINITION. Variant 2, UxROM: switchable program bank, fixed graphics (40_mapper.md section 6). -/

namespace Sys2Proof.Machine

/-- Write of $8000-$FFFF: the whole byte is the bank register (R88). -/
def execUxromWBank (_o : BitVec 15) (d : Byte) (s : State) : Result :=
  withUxrom s (fun m _ => done (s.setMapper (some { m with regs := .uxrom d })))

/-- Read of $8000-$BFFF: the switchable bank (R89). -/
def execUxromPrgLoR (o : BitVec 14) (s : State) : Result :=
  withUxrom s (fun m bank => answer s (m.uxromPrgRead bank (prgLoAddr o)))

/-- Read of $C000-$FFFF: the last bank (R89). -/
def execUxromPrgHiR (o : BitVec 14) (s : State) : Result :=
  withUxrom s (fun m bank => answer s (m.uxromPrgRead bank (prgHiAddr o)))

/-- Read of $0000-$1FFF (R90). -/
def execUxromChrR (o : BitVec 13) (s : State) : Result :=
  withUxrom s (fun m _ => answer s (m.chrRead (chrAddr o).toNat))

/-- Write of $0000-$1FFF (R90). -/
def execUxromChrW (o : BitVec 13) (d : Byte) (s : State) : Result :=
  withUxrom s (fun m _ => done (s.setMapper (some (m.chrWrite (chrAddr o).toNat d))))

/-- Peek of any address (R64). -/
def execUxromPeek (a : Addr) (s : State) : Result := withUxrom s (fun m bank => answer s (m.uxromRead bank s.cfg a))

/-- Read of an unmapped address (R91, R69). -/
def execUxromUnmappedR (a : Addr) (s : State) : Result := withUxrom s (fun _ _ => answer s (unmappedRead s.cfg a))

/-- Write of an unmapped address: ignored (R91, R69). -/
def execUxromUnmappedW (_a : Addr) (_d : Byte) (s : State) : Result := withUxrom s (fun _ _ => done s)

end Sys2Proof.Machine
end

