-- ==== Sys2Proof/Machine/Window.lean ====
section
/-! DEFINITION. The register window (41_ppu_registers.md): every row of the `WIN` target. The mirror index `k` of a
register's address changes nothing: "Mirrors behave exactly as the base address" (R97). -/

namespace Sys2Proof.Machine

/-! ## Shared operations -/

/-- A read of a write-only register: the io latch (R100). -/
def writeOnlyRead (s : State) : Result := windowRead s s.ppu.ioLatch

/-- A peek of a write-only register: the io latch, changing nothing (R99, R100). -/
def writeOnlyPeek (s : State) : Result := answer s s.ppu.ioLatch

/-- The OAMDATA byte (R107). -/
def oamdataByte (s : State) : Byte := s.oam.get s.ppu.oamAddr.toNat

/-- The effect of a PPUDATA read, the io latch apart: the byte returned, and the state with `v` incremented and, under
`PPUDATA_READ_BUFFERED`, the read buffer refilled (R112, R113). None: it needs the mapper and there is none. -/
def ppudataReadEffect (s : State) : Option (Byte × State) :=
  let a := busAddr s.ppu.v
  let v' := vInc s.ppu.ctrl s.ppu.v
  if s.cfg.ppudataReadBuffered then
    if a.toNat < 0x3F00 then
      (busRead s a).map (fun b => (s.ppu.readBuffer, s.setPpu { s.ppu with readBuffer := b, v := v' }))
    else
      (busRead s (a - 0x1000#14)).map (fun b => (paletteRead s a, s.setPpu { s.ppu with readBuffer := b, v := v' }))
  else (busRead s a).map (fun r => (r, s.setPpu { s.ppu with v := v' }))

/-- The byte a PPUDATA peek returns (R114). -/
def ppudataPeek (s : State) : Option Byte :=
  let a := busAddr s.ppu.v
  if s.cfg.ppudataReadBuffered && decide (a.toNat < 0x3F00) then some s.ppu.readBuffer else busRead s a

/-- The effect of a PPUDATA write, the io latch apart (R115). -/
def ppudataWriteEffect (s : State) (d : Byte) : Option State :=
  (busWrite s (busAddr s.ppu.v) d).map (fun t => t.setPpu { t.ppu with v := vInc t.ppu.ctrl t.ppu.v })

/-- The effect of a PPUSCROLL write, the io latch apart (R109). -/
def scrollWrite (p : Ppu) (d : Byte) : Ppu :=
  if p.w then { p with t := tAfterScrollY p.t d, w := false }
  else { p with t := tAfterScrollX p.t d, x := fineXOf d, w := true }

/-- The effect of a PPUADDR write, the io latch apart (R110). -/
def addrWrite (p : Ppu) (d : Byte) : Ppu :=
  if p.w then { p with t := tAfterAddrLo p.t d, v := tAfterAddrLo p.t d, w := false }
  else { p with t := tAfterAddrHi p.t d, w := true }

/-! ## PPUCTRL, PPUMASK, PPUSTATUS -/

/-- A read of PPUCTRL (R100). -/
def execPpuctrlR (_k : BitVec 10) (s : State) : Result := writeOnlyRead s

/-- A peek of PPUCTRL (R100). -/
def execPpuctrlP (_k : BitVec 10) (s : State) : Result := writeOnlyPeek s

/-- PPUCTRL write (R101). -/
def execPpuctrlW (_k : BitVec 10) (d : Byte) (s : State) : Result :=
  let s := s.latch d
  let written := s.setPpu { s.ppu with ctrl := d, t := tAfterCtrl s.ppu.t d }
  done (if nmiOnCtrlWrite s.cfg s.ppu d then signalNmi written else written)

/-- A read of PPUMASK (R100). -/
def execPpumaskR (_k : BitVec 10) (s : State) : Result := writeOnlyRead s

/-- A peek of PPUMASK (R100). -/
def execPpumaskP (_k : BitVec 10) (s : State) : Result := writeOnlyPeek s

/-- PPUMASK write (R102). -/
def execPpumaskW (_k : BitVec 10) (d : Byte) (s : State) : Result :=
  let s := s.latch d
  done (s.setPpu { s.ppu with mask := d })

/-- PPUSTATUS read (R103). -/
def execPpustatusR (_k : BitVec 10) (s : State) : Result :=
  windowRead (s.setPpu (statusReadEffect s.ppu)) (statusByte s.ppu)

/-- PPUSTATUS peek (R104). -/
def execPpustatusP (_k : BitVec 10) (s : State) : Result := answer s (statusByte s.ppu)

/-- PPUSTATUS write: a defined no-op, but for the io latch (R105). -/
def execPpustatusW (_k : BitVec 10) (d : Byte) (s : State) : Result := done (s.latch d)

/-! ## OAMADDR, OAMDATA -/

/-- A read of OAMADDR (R100). -/
def execOamaddrR (_k : BitVec 10) (s : State) : Result := writeOnlyRead s

/-- A peek of OAMADDR (R100). -/
def execOamaddrP (_k : BitVec 10) (s : State) : Result := writeOnlyPeek s

/-- OAMADDR write (R106). -/
def execOamaddrW (_k : BitVec 10) (d : Byte) (s : State) : Result :=
  let s := s.latch d
  done (s.setPpu { s.ppu with oamAddr := d })

/-- OAMDATA read: the address is not incremented (R107, C6). -/
def execOamdataR (_k : BitVec 10) (s : State) : Result := windowRead s (oamdataByte s)

/-- OAMDATA peek (R107). -/
def execOamdataP (_k : BitVec 10) (s : State) : Result := answer s (oamdataByte s)

/-- OAMDATA write (R108). -/
def execOamdataW (_k : BitVec 10) (d : Byte) (s : State) : Result :=
  let s := s.latch d
  done ((s.setOam (s.oam.set s.ppu.oamAddr.toNat d)).setPpu { s.ppu with oamAddr := s.ppu.oamAddr + 1#8 })

/-! ## PPUSCROLL, PPUADDR, PPUDATA -/

/-- A read of PPUSCROLL (R100). -/
def execPpuscrollR (_k : BitVec 10) (s : State) : Result := writeOnlyRead s

/-- A peek of PPUSCROLL (R100). -/
def execPpuscrollP (_k : BitVec 10) (s : State) : Result := writeOnlyPeek s

/-- PPUSCROLL write (R109). -/
def execPpuscrollW (_k : BitVec 10) (d : Byte) (s : State) : Result :=
  let s := s.latch d
  done (s.setPpu (scrollWrite s.ppu d))

/-- A read of PPUADDR (R100). -/
def execPpuaddrR (_k : BitVec 10) (s : State) : Result := writeOnlyRead s

/-- A peek of PPUADDR (R100). -/
def execPpuaddrP (_k : BitVec 10) (s : State) : Result := writeOnlyPeek s

/-- PPUADDR write (R110). -/
def execPpuaddrW (_k : BitVec 10) (d : Byte) (s : State) : Result :=
  let s := s.latch d
  done (s.setPpu (addrWrite s.ppu d))

/-- PPUDATA read (R112, R113). -/
def execPpudataR (_k : BitVec 10) (s : State) : Result :=
  orNoCartridge (ppudataReadEffect s) (fun r => windowRead r.2 r.1)

/-- PPUDATA peek (R114). -/
def execPpudataP (_k : BitVec 10) (s : State) : Result := orNoCartridge (ppudataPeek s) (fun r => answer s r)

/-- PPUDATA write (R115). -/
def execPpudataW (_k : BitVec 10) (d : Byte) (s : State) : Result :=
  orNoCartridge (ppudataWriteEffect (s.latch d) d) done

/-! ## OAMDMA and addresses outside the window -/

/-- A read of the DMA port: the io latch, which "any operation on $4014" leaves (R100, R98). -/
def execOamdmaR (s : State) : Result := answer s s.ppu.ioLatch

/-- A peek of the DMA port (R100). -/
def execOamdmaP (s : State) : Result := answer s s.ppu.ioLatch

/-- OAMDMA write (R116): refused by value for pages $20-$3F, before any effect; else the event, then the 256 bytes in
source order. -/
def execOamdmaW (d : Byte) (s : State) : Result :=
  if dmaFromWindow d then .refused .dmaFromWindow
  else done ((s.record (.dmaTransfer d)).setOam (dmaCopy s d (List.range 256) s.oam))

/-- A read outside the window: the io latch; no state changes (R117). -/
def execWinOutsideR (_a : Addr) (s : State) : Result := answer s s.ppu.ioLatch

/-- A peek outside the window (R117). -/
def execWinOutsideP (_a : Addr) (s : State) : Result := answer s s.ppu.ioLatch

/-- A write outside the window: skipped (R117). -/
def execWinOutsideW (_a : Addr) (_d : Byte) (s : State) : Result := done s

end Sys2Proof.Machine
end

