-- ==== Sys2Proof/Machine/Dispatch.lean ====
section
/-! DEFINITION. One arm per row of opcode_table.json, each one call of its meaning. -/

namespace Sys2Proof.Machine

def exec (i : Instr) (s : State) : Host.Outcome State Fault Refusal :=
  match i with
  | .ppuctrlR k => Sys2Proof.Machine.execPpuctrlR k s
  | .ppuctrlP k => Sys2Proof.Machine.execPpuctrlP k s
  | .ppuctrlW k d => Sys2Proof.Machine.execPpuctrlW k d s
  | .ppumaskR k => Sys2Proof.Machine.execPpumaskR k s
  | .ppumaskP k => Sys2Proof.Machine.execPpumaskP k s
  | .ppumaskW k d => Sys2Proof.Machine.execPpumaskW k d s
  | .ppustatusR k => Sys2Proof.Machine.execPpustatusR k s
  | .ppustatusP k => Sys2Proof.Machine.execPpustatusP k s
  | .ppustatusW k d => Sys2Proof.Machine.execPpustatusW k d s
  | .oamaddrR k => Sys2Proof.Machine.execOamaddrR k s
  | .oamaddrP k => Sys2Proof.Machine.execOamaddrP k s
  | .oamaddrW k d => Sys2Proof.Machine.execOamaddrW k d s
  | .oamdataR k => Sys2Proof.Machine.execOamdataR k s
  | .oamdataP k => Sys2Proof.Machine.execOamdataP k s
  | .oamdataW k d => Sys2Proof.Machine.execOamdataW k d s
  | .ppuscrollR k => Sys2Proof.Machine.execPpuscrollR k s
  | .ppuscrollP k => Sys2Proof.Machine.execPpuscrollP k s
  | .ppuscrollW k d => Sys2Proof.Machine.execPpuscrollW k d s
  | .ppuaddrR k => Sys2Proof.Machine.execPpuaddrR k s
  | .ppuaddrP k => Sys2Proof.Machine.execPpuaddrP k s
  | .ppuaddrW k d => Sys2Proof.Machine.execPpuaddrW k d s
  | .ppudataR k => Sys2Proof.Machine.execPpudataR k s
  | .ppudataP k => Sys2Proof.Machine.execPpudataP k s
  | .ppudataW k d => Sys2Proof.Machine.execPpudataW k d s
  | .oamdmaR => Sys2Proof.Machine.execOamdmaR s
  | .oamdmaP => Sys2Proof.Machine.execOamdmaP s
  | .oamdmaW d => Sys2Proof.Machine.execOamdmaW d s
  | .winOutsideR a => Sys2Proof.Machine.execWinOutsideR a s
  | .winOutsideP a => Sys2Proof.Machine.execWinOutsideP a s
  | .winOutsideW a d => Sys2Proof.Machine.execWinOutsideW a d s
  | .nromChrR o => Sys2Proof.Machine.execNromChrR o s
  | .nromChrW o d => Sys2Proof.Machine.execNromChrW o d s
  | .nromPrgR o => Sys2Proof.Machine.execNromPrgR o s
  | .nromPrgW o d => Sys2Proof.Machine.execNromPrgW o d s
  | .nromPeek a => Sys2Proof.Machine.execNromPeek a s
  | .nromUnmappedR a => Sys2Proof.Machine.execNromUnmappedR a s
  | .nromUnmappedW a d => Sys2Proof.Machine.execNromUnmappedW a d s
  | .mmc1PrgramR o => Sys2Proof.Machine.execMmc1PrgramR o s
  | .mmc1PrgramW o d => Sys2Proof.Machine.execMmc1PrgramW o d s
  | .mmc1WCtrl o d => Sys2Proof.Machine.execMmc1WCtrl o d s
  | .mmc1WChr0 o d => Sys2Proof.Machine.execMmc1WChr0 o d s
  | .mmc1WChr1 o d => Sys2Proof.Machine.execMmc1WChr1 o d s
  | .mmc1WPrg o d => Sys2Proof.Machine.execMmc1WPrg o d s
  | .mmc1PrgLoR o => Sys2Proof.Machine.execMmc1PrgLoR o s
  | .mmc1PrgHiR o => Sys2Proof.Machine.execMmc1PrgHiR o s
  | .mmc1ChrLoR o => Sys2Proof.Machine.execMmc1ChrLoR o s
  | .mmc1ChrHiR o => Sys2Proof.Machine.execMmc1ChrHiR o s
  | .mmc1ChrW o d => Sys2Proof.Machine.execMmc1ChrW o d s
  | .mmc1Peek a => Sys2Proof.Machine.execMmc1Peek a s
  | .mmc1UnmappedR a => Sys2Proof.Machine.execMmc1UnmappedR a s
  | .mmc1UnmappedW a d => Sys2Proof.Machine.execMmc1UnmappedW a d s
  | .uxromWBank o d => Sys2Proof.Machine.execUxromWBank o d s
  | .uxromPrgLoR o => Sys2Proof.Machine.execUxromPrgLoR o s
  | .uxromPrgHiR o => Sys2Proof.Machine.execUxromPrgHiR o s
  | .uxromChrR o => Sys2Proof.Machine.execUxromChrR o s
  | .uxromChrW o d => Sys2Proof.Machine.execUxromChrW o d s
  | .uxromPeek a => Sys2Proof.Machine.execUxromPeek a s
  | .uxromUnmappedR a => Sys2Proof.Machine.execUxromUnmappedR a s
  | .uxromUnmappedW a d => Sys2Proof.Machine.execUxromUnmappedW a d s
  | .cnromWBank o d => Sys2Proof.Machine.execCnromWBank o d s
  | .cnromChrR o => Sys2Proof.Machine.execCnromChrR o s
  | .cnromChrW o d => Sys2Proof.Machine.execCnromChrW o d s
  | .cnromPrgR o => Sys2Proof.Machine.execCnromPrgR o s
  | .cnromPeek a => Sys2Proof.Machine.execCnromPeek a s
  | .cnromUnmappedR a => Sys2Proof.Machine.execCnromUnmappedR a s
  | .cnromUnmappedW a d => Sys2Proof.Machine.execCnromUnmappedW a d s
  | .pbusPtR o => Sys2Proof.Machine.execPbusPtR o s
  | .pbusPalR o => Sys2Proof.Machine.execPbusPalR o s
  | .pbusNtR o => Sys2Proof.Machine.execPbusNtR o s
  | .pbusPtW o d => Sys2Proof.Machine.execPbusPtW o d s
  | .pbusPalW o d => Sys2Proof.Machine.execPbusPalW o d s
  | .pbusNtW o d => Sys2Proof.Machine.execPbusNtW o d s
  | .pbusPtP o => Sys2Proof.Machine.execPbusPtP o s
  | .pbusPalP o => Sys2Proof.Machine.execPbusPalP o s
  | .pbusNtP o => Sys2Proof.Machine.execPbusNtP o s
  | .ppuTick => Sys2Proof.Machine.execPpuTick s
  | .ppuPowerCycle => Sys2Proof.Machine.execPpuPowerCycle s
  | .ppuReset => Sys2Proof.Machine.execPpuReset s
  | .ppuFramebuffer => Sys2Proof.Machine.execPpuFramebuffer s
  | .ppuFrameCount => Sys2Proof.Machine.execPpuFrameCount s
  | .mapFactory id => Sys2Proof.Machine.execMapFactory id s
  | .mapTick => Sys2Proof.Machine.execMapTick s
  | .mapMirroring => Sys2Proof.Machine.execMapMirroring s

end Sys2Proof.Machine
end

