-- ==== Sys2Proof/Machine/Step.lean ====
section
/-! DEFINITION. One step: the host issues its next transaction (R6, R7, R49). -/

namespace Sys2Proof.Machine

/-- What a rejected word is refused with (R155). -/
def Refusal.ofRejection : Rejection → Refusal
  | .badWord => .badWord
  | .noCartridge => .noCartridge

/-- The host issues transaction `tx` and keeps `rest`: the metadata and the processor-memory answers it hands over are
in force from here on (log 7). -/
def State.issue (s : State) (tx : Transaction) (rest : List Transaction) : State :=
  { s with inbox := rest, cartridge := tx.cartridge.getD s.cartridge, cpuMem := tx.cpuMem.getD s.cpuMem }

/-- One step: the oldest transaction is decoded for the variant in the slot and executed; with none pending the core
"does nothing" (R170, log 2). -/
def step (s : State) : Host.Outcome State Fault Refusal :=
  match s.inbox with
  | [] => .next s
  | tx :: rest =>
    match decode s.slot tx.word with
    | .error r => .refused (Refusal.ofRejection r)
    | .ok i => exec i (s.issue tx rest)

/-! ## A word where the next step takes it from -/

/-- The cartridge `withFetchWord` puts into an empty slot: the smallest valid one, all zero, of variant `tableVariant`
(log 9). -/
def fetchCartridge : Mapper :=
  { prg := [], prgSize := 16384, chr := [], chrSize := 8192, hint := .horizontal, regs := .mmc1 Mmc1.initial }

/-- The operations R155 refuses outright while the slot is empty: every cartridge row, the mapper's `tick()` and
`mirroring()`, and the accesses of $0000-$3EFF of the PPU bus. -/
def callsMapper : Instr → Bool
  | .mapTick | .mapMirroring => true
  | .pbusPtR _ | .pbusPtW _ _ | .pbusPtP _ | .pbusNtR _ | .pbusNtW _ _ | .pbusNtP _ => true
  | .ppudataR _ | .ppudataP _ | .ppudataW _ _ => true
  | i => i.variant?.isSome

/-- The slot the next step needs: an empty one is filled only for an operation that calls the mapper. -/
def fetchSlot (s : State) (nbits w : Nat) : Option Mapper :=
  match s.mapper with
  | some m => some m
  | none =>
    match decodeTableWord nbits w with
    | some i => if callsMapper i then some fetchCartridge else none
    | none => none

/-- `s` with the word `w` as the one pending transaction, and a mapper in the slot where the operation needs one. -/
def State.withFetchWord (s : State) (nbits w : Nat) : State :=
  { s with inbox := [{ word := BitVec.ofNat 32 (w % 2 ^ nbits) }], mapper := fetchSlot s nbits w }

end Sys2Proof.Machine
end

