-- ==== Sys2Proof/Safety.lean ====
section
/-! DEFINITION. What a sound state is, when an operation completes, and sessions of operations: the terms the statements
use. -/

namespace Sys2Proof.Machine

/-! ## Sound states -/

/-- The PPU's bounded counters (R23, R25) and its framebuffer (R28). -/
def Ppu.inv (p : Ppu) : Bool :=
  decide (p.scanline < 262) && decide (p.dot < 341) && decide (p.soamCount ≤ 8) && decide (p.unitCount ≤ 8)
    && Framebuffer.wf p.framebuffer

/-- Variant 1's bit count and PRG-RAM (R33, R31). -/
def MapperRegs.inv : MapperRegs → Bool
  | .mmc1 r => decide (r.count ≤ 4) && Memory.array 8192 r.prgram
  | .nrom => true
  | .uxrom _ => true
  | .cnrom _ => true

/-- A mapper the factory can have built (R71, R75): whole, nonempty banks. -/
def Mapper.inv (m : Mapper) : Bool :=
  decide (m.prgSize ≠ 0) && decide (m.prgSize % 16384 = 0) && decide (m.chrSize % 8192 = 0)
    && Memory.array m.prgSize m.prg && Memory.array (max m.chrSize 8192) m.chr && m.regs.inv

/-- A byte array of the metadata lists only bytes it has (R30). -/
def Image.inv (i : Image) : Bool := Memory.array i.len i.bytes

def Metadata.inv (md : Metadata) : Bool := md.prgBytes.inv && md.chrBytes.inv

def Transaction.inv (tx : Transaction) : Bool := tx.cartridge.all Metadata.inv && tx.cpuMem.all (Memory.array 65536)

/-- Every counter in its bounds, every memory in canonical form and within its size, the mapper one the factory can have
built. -/
def State.inv (s : State) : Bool :=
  s.ppu.inv && s.mapper.all Mapper.inv && Memory.array 256 s.oam && Memory.array 32 s.soam
    && Memory.array (ntramSizeOf s.mapper) s.ntram && Memory.array 32 s.palette && s.cartridge.inv
    && Memory.array 65536 s.cpuMem && Memory.array 65536 s.cfg.unmappedRead && s.inbox.all Transaction.inv

/-! ## When an operation completes (R155, R156) -/

/-- The dots with a background fetch (R132). -/
def fetchDot (d : Nat) : Bool := (groupDot d && (d - 1) % 8 % 2 == 0 && (d - 1) % 8 != 7) || d == 337 || d == 339

/-- "a `PPU.TICK` whose rendering fetches reach the PPU bus" (R155): a background fetch, or the load of a sprite unit. -/
def tickFetches (p : Ppu) : Bool :=
  renderingEnabled p.mask
    && ((decide (p.scanline < 240) || p.scanline == 261) && fetchDot p.dot
        || decide (p.scanline < 240) && p.dot == 257 && p.soamCount != 0)

/-- A bus access at `a` needs no mapper, or there is one (R156). -/
def reaches (s : State) (a : BusAddr) : Bool := s.mapper.isSome || decide (0x3F00 ≤ a.toNat)

/-- The conditions under which an operation is not refused (R155). -/
def ready (i : Instr) (s : State) : Bool :=
  match i with
  | .oamdmaW d => !dmaFromWindow d
  | .ppudataR _ => s.mapper.isSome || (!s.cfg.ppudataReadBuffered && reaches s (busAddr s.ppu.v))
  | .ppudataP _ => s.cfg.ppudataReadBuffered || reaches s (busAddr s.ppu.v)
  | .ppudataW _ _ => reaches s (busAddr s.ppu.v)
  | .pbusPtR o | .pbusPtW o _ | .pbusPtP o => reaches s (ptBusAddr o)
  | .pbusNtR o | .pbusNtW o _ | .pbusNtP o => reaches s (ntBusAddr o)
  | .ppuTick => s.mapper.isSome || !tickFetches s.ppu
  | .mapTick | .mapMirroring => s.mapper.isSome
  | i =>
    match i.variant? with
    | none => true
    | some v => s.slot == some v

/-! ## Rows that belong together -/

/-- The peek row of the register a window read row reads (R99). -/
def windowPeek? : Instr → Option Instr
  | .ppuctrlR k => some (.ppuctrlP k)
  | .ppumaskR k => some (.ppumaskP k)
  | .ppustatusR k => some (.ppustatusP k)
  | .oamaddrR k => some (.oamaddrP k)
  | .oamdataR k => some (.oamdataP k)
  | .ppuscrollR k => some (.ppuscrollP k)
  | .ppuaddrR k => some (.ppuaddrP k)
  | .ppudataR k => some (.ppudataP k)
  | .oamdmaR => some .oamdmaP
  | .winOutsideR a => some (.winOutsideP a)
  | _ => none

/-- The row of variant 1's serial load port that holds the quarter `sel = a[14:13]` of $8000-$FFFF (R82, R83):
`MMC1_W_CTRL`, `MMC1_W_CHR0`, `MMC1_W_CHR1`, `MMC1_W_PRG`. -/
def serialPort (sel : BitVec 2) (o : BitVec 13) (d : Byte) : Instr :=
  match sel with
  | 0#2 => .mmc1WCtrl o d
  | 1#2 => .mmc1WChr0 o d
  | 2#2 => .mmc1WChr1 o d
  | _ => .mmc1WPrg o d

/-- The rows whose work includes a `CartWrite` that is not "a defined no-op": the bank registers, PRG-RAM, the graphics
window, and the two ports of the PPU bus (R65, R41, R115). -/
def writesMapper : Instr → Bool
  | .nromChrW _ _ | .mmc1PrgramW _ _ | .mmc1WCtrl _ _ | .mmc1WChr0 _ _ | .mmc1WChr1 _ _ | .mmc1WPrg _ _ => true
  | .mmc1ChrW _ _ | .uxromWBank _ _ | .uxromChrW _ _ | .cnromWBank _ _ | .cnromChrW _ _ => true
  | .pbusPtW _ _ | .ppudataW _ _ => true
  | _ => false

/-! ## Sessions -/

/-- The operations of a session, in order, stopping at the first that does not complete. -/
def execAll : List Instr → State → Result
  | [], s => .next s
  | i :: is, s =>
    match exec i s with
    | .next t => execAll is t
    | .fault r => .fault r
    | .refused r => .refused r

/-- `TICK n` (R62): `PPU.TICK` repeated `n` times. -/
def ticks (n : Nat) : State → Result := execAll (List.replicate n .ppuTick)

/-- The position as the number of dots from (0, 0), row by row. -/
def dotIndex (p : Ppu) : Nat := p.scanline * 341 + p.dot

end Sys2Proof.Machine
end

