-- ==== Sys2Proof/Certificates/Slice0/Obligations.lean ====
section
/-! DEFINITION. The statements about the model, from the numbered rules of spec/. Where a statement says what an operation
does, its conclusion is the whole next state, so it is at once the result, the frame and the completion: every field not
named in the update is unchanged. -/

open Sys2Proof Sys2Proof.Machine

/-! ## Encoding (30_encoding.md) -/

/-- Decoding the word of a well-formed operation gives the operation back, whatever the slot holds that lets its row be
selected (R54 to R58). -/
def Obligations.DecodeOfEncode : Prop :=
  ∀ i : Instr, i.wf = true → ∀ slot : Option Variant, i.rowIn slot → decode slot (encode i) = .ok i

/-- A word that decodes is the word of the operation it decodes to, and the operation is one its row admits (R54 to R58). -/
def Obligations.EncodeOfDecode : Prop :=
  ∀ (slot : Option Variant) (w : Word) (i : Instr),
    decode slot w = .ok i → encode i = w ∧ i.wf = true ∧ i.rowIn slot

/-- R58: the decoder selects the first row of the opcode table whose masked bits the word has and whose variant, if any,
is the mapper's; and it refuses a word no row selects. -/
def Obligations.DecoderFollowsOpcodeTable : Prop :=
  ∀ (v : Variant) (w : Word), (decode (some v) w).toOption.map Instr.row = selectRow v w

/-- R59: the words of the common operations. `CART` words select a row of the variant in the slot. -/
def Obligations.CommonWordsDecode : Prop :=
  (∀ slot : Option Variant,
    decode slot 0x01200621#32 = .ok (.ppuaddrW 0 0x21) ∧
    decode slot 0x01200608#32 = .ok (.ppuaddrW 0 0x08) ∧
    decode slot 0x00200200#32 = .ok (.ppustatusR 0) ∧
    decode slot 0x00200700#32 = .ok (.ppudataR 0) ∧
    decode slot 0x02200200#32 = .ok (.ppustatusP 0) ∧
    decode slot 0x01200080#32 = .ok (.ppuctrlW 0 0x80) ∧
    decode slot 0x01401402#32 = .ok (.oamdmaW 0x02) ∧
    decode slot 0x013FFE05#32 = .ok (.ppuaddrW 0x3FF 0x05) ∧
    decode slot 0x203F0000#32 = .ok (.pbusPalR 0) ∧
    decode slot 0x33000000#32 = .ok .ppuTick ∧
    decode slot 0x34000000#32 = .ok .ppuPowerCycle ∧
    decode slot 0x35000000#32 = .ok .ppuReset ∧
    decode slot 0x37000000#32 = .ok .ppuFramebuffer ∧
    decode slot 0x38000000#32 = .ok .ppuFrameCount ∧
    decode slot 0x43000000#32 = .ok .mapTick ∧
    decode slot 0x46000000#32 = .ok .mapMirroring ∧
    decode slot 0x49000003#32 = .ok (.mapFactory 3)) ∧
  decode (some .nrom) 0x11800002#32 = .ok (.nromPrgW 0 2) ∧
  decode (some .mmc1) 0x11800002#32 = .ok (.mmc1WCtrl 0 2) ∧
  decode (some .uxrom) 0x11800002#32 = .ok (.uxromWBank 0 2) ∧
  decode (some .cnrom) 0x11800002#32 = .ok (.cnromWBank 0 2) ∧
  decode (some .nrom) 0x10C12300#32 = .ok (.nromPrgR 0x4123) ∧
  decode (some .mmc1) 0x10C12300#32 = .ok (.mmc1PrgHiR 0x0123) ∧
  decode (some .uxrom) 0x10C12300#32 = .ok (.uxromPrgHiR 0x0123) ∧
  decode (some .cnrom) 0x10C12300#32 = .ok (.cnromPrgR 0x4123)

/-- R55: the legal words, by the numbers in their fields; every other word spells no operation. -/
def Obligations.LegalWords : Prop :=
  ∀ (slot : Option Variant) (w : Word),
    let t := w.toNat / 2 ^ 28
    let o := w.toNat / 2 ^ 24 % 2 ^ 4
    let a := w.toNat / 2 ^ 8 % 2 ^ 16
    let d := w.toNat % 2 ^ 8
    decode slot w ≠ .error .badWord ↔
      (t ≤ 1 ∧ o ≤ 2 ∧ (o = 1 ∨ d = 0)) ∨
      (t = 2 ∧ o ≤ 2 ∧ (o = 1 ∨ d = 0) ∧ a < 2 ^ 14) ∨
      (t = 3 ∧ (o = 3 ∨ o = 4 ∨ o = 5 ∨ o = 7 ∨ o = 8) ∧ a = 0 ∧ d = 0) ∨
      (t = 4 ∧ (o = 3 ∨ o = 6) ∧ a = 0 ∧ d = 0) ∨
      (t = 4 ∧ o = 9 ∧ a = 0)

/-! ## Steps, refusals, completion (60_exceptions.md) -/

/-- A step runs the operation the oldest pending transaction names, with what the host hands over in force, and idles
when none is pending (R6, R49, R170; the queue is the model's, log 1, 2 and 7). -/
def Obligations.StepRunsDecodedInstruction : Prop :=
  (∀ (s : State) (tx : Transaction) (rest : List Transaction) (i : Instr),
    s.inbox = tx :: rest → decode s.slot tx.word = .ok i →
      step s = exec i { s with inbox := rest, cartridge := tx.cartridge.getD s.cartridge,
                               cpuMem := tx.cpuMem.getD s.cpuMem }) ∧
  (∀ s : State, s.inbox = [] → step s = .next s)

/-- When a step is refused, and with which reason, in every case (R155, R157); it never faults (R153). `ready` (Safety.lean)
says which accesses need the mapper; its readings of R155 where no mapper is in the slot (a buffered PPUDATA peek below
$3F00 runs, a buffered palette read is refused, a tick at a dot that fetches nothing runs) are the model's, DEDUCED in log
13 and 14. -/
def Obligations.StepRefusalsExactly : Prop :=
  ∀ (s : State) (tx : Transaction) (rest : List Transaction), s.inbox = tx :: rest →
    (step s = .refused .badWord ↔ decode s.slot tx.word = .error .badWord) ∧
    (step s = .refused .noCartridge ↔
      s.mapper = none ∧
        (decode s.slot tx.word = .error .noCartridge ∨
          ∃ i, decode s.slot tx.word = .ok i ∧ ready i s = false ∧ ∀ d, i ≠ .oamdmaW d)) ∧
    (step s = .refused .dmaFromWindow ↔
      ∃ d : Byte, decode s.slot tx.word = .ok (.oamdmaW d) ∧ 0x20 ≤ d.toNat ∧ d.toNat ≤ 0x3F) ∧
    step s ≠ .refused .otherVariant ∧ (∀ n, step s ≠ .refused (.notModelled n)) ∧ ∀ f, step s ≠ .fault f

/-- Every operation completes exactly when `ready` says so: the mapper is there if the operation needs it, a cartridge row
is one of the slot's variant, and a DMA does not read the window (R155, R156, R116). In particular every window row but
PPUDATA and OAMDMA_W, and every PPU row but the tick, completes in every state. The readings of R155 where no mapper is in
the slot are the model's, DEDUCED in log 13 and 14. -/
def Obligations.ExecCompletesIffReady : Prop :=
  ∀ (i : Instr) (s : State), (∃ t, exec i s = .next t) ↔ ready i s = true

/-! ## Construction, power cycle, reset (70_reset_and_hazards.md) -/

/-- R172: the values at construction, and that the PPU's are those of `power_cycle()`. -/
def Obligations.ConstructionValues : Prop :=
  ∀ (cfg : Params) (oam soam ntram palette : Memory),
    let s := State.construct cfg oam soam ntram palette
    s.ppu =
      { ctrl := 0, mask := 0, vblank := false, s0hit := false, overflow := false, oamAddr := 0, v := 0, t := 0, x := 0,
        w := false, readBuffer := 0, ioLatch := 0, scanline := 0, dot := 0, frameCount := 0, oddFrame := false,
        bg := ⟨0, 0, 0, 0, 0, 0, 0, 0⟩, soamCount := 0, spr0Next := false, units := Vector.replicate 8 ⟨0, 0, 0, 0⟩,
        unitCount := 0, spr0Line := false, framebuffer := [] } ∧
    (∀ y x, Framebuffer.get s.ppu.framebuffer y x = 0) ∧
    s.cfg = cfg ∧ s.oam = oam ∧ s.soam = soam ∧ s.ntram = ntram ∧ s.palette = palette ∧ s.mapper = none ∧
    s.history = [] ∧
    (∀ r : State, exec .ppuPowerCycle r = .next { r with ppu := s.ppu, reply := .none }) ∧
    State.reset = State.construct Config.defaults [] [] [] []

/-- The invariant of `StepKeepsInvariant` holds at construction, for contents of the right sizes, and at reset. -/
def Obligations.ConstructionHasInvariant : Prop :=
  (∀ (cfg : Params) (oam soam ntram palette : Memory),
    Memory.array 65536 cfg.unmappedRead = true → Memory.array 256 oam = true → Memory.array 32 soam = true →
    Memory.array 2048 ntram = true → Memory.array 32 palette = true →
      (State.construct cfg oam soam ntram palette).inv = true) ∧
  State.reset.inv = true

/-- Every step keeps the invariant: the counters stay in their bounds (R23, R25, R33), every memory stays a byte array of
its size in canonical form, nametable RAM has the size the topology asks for (R27), and the mapper is whole banks (R71). -/
def Obligations.StepKeepsInvariant : Prop :=
  ∀ s t : State, s.inv = true → step s = .next t → t.inv = true

/-- R174, R175 and the queries R118, R119. -/
def Obligations.LifecycleAndQueries : Prop :=
  ∀ s : State,
    exec .ppuPowerCycle s = .next
      { s with
        ppu :=
          { ctrl := 0, mask := 0, vblank := false, s0hit := false, overflow := false, oamAddr := 0, v := 0, t := 0,
            x := 0, w := false, readBuffer := 0, ioLatch := 0, scanline := 0, dot := 0, frameCount := 0,
            oddFrame := false, bg := ⟨0, 0, 0, 0, 0, 0, 0, 0⟩, soamCount := 0, spr0Next := false,
            units := Vector.replicate 8 ⟨0, 0, 0, 0⟩, unitCount := 0, spr0Line := false, framebuffer := [] },
        reply := .none } ∧
    exec .ppuReset s = .next
      { s with
        ppu :=
          { s.ppu with
            ctrl := 0, mask := 0, t := 0, x := 0, w := false, readBuffer := 0, scanline := 0, dot := 0,
            oddFrame := false, bg := ⟨0, 0, 0, 0, 0, 0, 0, 0⟩, soamCount := 0, spr0Next := false,
            units := Vector.replicate 8 ⟨0, 0, 0, 0⟩, unitCount := 0, spr0Line := false },
        reply := .none } ∧
    (∀ op, op = Instr.ppuPowerCycle ∨ op = Instr.ppuReset → execAll [op, op] s = exec op s) ∧
    exec .ppuFramebuffer s = .next { s with reply := .picture s.ppu.framebuffer } ∧
    exec .ppuFrameCount s = .next { s with reply := .frames s.ppu.frameCount }

/-! ## Timing (42_ppu_timing.md) -/

/-- R126: the position, the frame count and the frame's parity after a tick, and that the counters stay in bounds. -/
def Obligations.TickAdvancesPosition : Prop :=
  ∀ s t : State, exec .ppuTick s = .next t →
    let p := s.ppu
    (t.ppu.scanline, t.ppu.dot, t.ppu.frameCount, t.ppu.oddFrame) =
      (if p.scanline = 261 ∧ p.dot = 339 ∧ s.cfg.oddFrameSkip = true ∧ p.oddFrame = true
          ∧ (p.mask.getLsbD 3 = true ∨ p.mask.getLsbD 4 = true) then (0, 0, p.frameCount + 1, !p.oddFrame)
       else if p.dot = 340 then
         if p.scanline = 261 then (0, 0, p.frameCount + 1, !p.oddFrame)
         else (p.scanline + 1, 0, p.frameCount, p.oddFrame)
       else (p.scanline, p.dot + 1, p.frameCount, p.oddFrame)) ∧
    (p.scanline < 262 → p.dot < 341 → t.ppu.scanline < 262 ∧ t.ppu.dot < 341)

/-- In any session of operations from (0, 0) without a power cycle or reset, the position is the number of ticks, row by
row, for as long as the frame cannot have ended (R130, from R126). -/
def Obligations.PositionCountsTicks : Prop :=
  ∀ (is : List Instr) (s t : State), s.ppu.scanline = 0 → s.ppu.dot = 0 →
    (∀ i ∈ is, i ≠ .ppuPowerCycle ∧ i ≠ .ppuReset) → execAll is s = .next t → is.count .ppuTick < 89341 →
      t.ppu.scanline = is.count .ppuTick / 341 ∧ t.ppu.dot = is.count .ppuTick % 341 ∧
      t.ppu.frameCount = s.ppu.frameCount ∧ t.ppu.oddFrame = s.ppu.oddFrame

/-- A frame is 89342 ticks, or 89341 where the odd-frame skip applies: with a mapper in the slot that many ticks from
(0, 0) complete, come back to (0, 0), and no smaller number of them does (R128, from R126 and R127). -/
def Obligations.FrameLength : Prop :=
  ∀ s : State, s.ppu.scanline = 0 → s.ppu.dot = 0 → s.mapper.isSome = true →
    let len := if s.cfg.oddFrameSkip = true ∧ s.ppu.oddFrame = true
        ∧ (s.ppu.mask.getLsbD 3 = true ∨ s.ppu.mask.getLsbD 4 = true) then 89341 else 89342
    (∃ t, ticks len s = .next t ∧ t.ppu.scanline = 0 ∧ t.ppu.dot = 0 ∧ t.ppu.frameCount = s.ppu.frameCount + 1 ∧
      t.ppu.oddFrame = !s.ppu.oddFrame) ∧
    ∀ n t, 0 < n → n < len → ticks n s = .next t → ¬(t.ppu.scanline = 0 ∧ t.ppu.dot = 0)

/-- The vblank flag over a frame with no status read in it: 0 up to tick 82182, 1 from tick 82183 to tick 89002, 0 from
tick 89003 on, whatever else the host does (R129, R130). -/
def Obligations.VblankFlagOverAFrame : Prop :=
  ∀ (is : List Instr) (s t : State), s.ppu.scanline = 0 → s.ppu.dot = 0 → s.ppu.vblank = false →
    (∀ i ∈ is, i ≠ .ppuPowerCycle ∧ i ≠ .ppuReset ∧ ∀ k, i ≠ .ppustatusR k) → execAll is s = .next t →
    is.count .ppuTick ≤ 89341 →
      (t.ppu.vblank = true ↔ 82183 ≤ is.count .ppuTick ∧ is.count .ppuTick < 89003)

/-- R159: with `NMI_ON_CTRL_ENABLE` false, a frame holds one `NmiSignal` if `ctrl.nmi = 1` at the tick of (241, 1) and
none otherwise; the frame is cut at that tick, its 82183rd. -/
def Obligations.NmiOncePerFrame : Prop :=
  ∀ (before after : List Instr) (s a b t : State), s.ppu.scanline = 0 → s.ppu.dot = 0 →
    s.cfg.nmiOnCtrlEnable = false → (∀ i ∈ before ++ after, i ≠ .ppuPowerCycle ∧ i ≠ .ppuReset) →
    before.count .ppuTick = 82182 → after.count .ppuTick ≤ 7159 →
    execAll before s = .next a → exec .ppuTick a = .next b → execAll after b = .next t →
      a.ppu.scanline = 241 ∧ a.ppu.dot = 1 ∧
      t.history.count .nmiSignal = s.history.count .nmiSignal + (if a.ppu.ctrl.getLsbD 7 then 1 else 0)

/-- R123, R124, R125: the ticks at (241, 1) and (261, 1), and the ticks that do nothing but advance the position. The
nametable latch, which the tick at (261, 1) fills with rendering enabled, is `BackgroundFetchesOfATick`'s. -/
def Obligations.FlagEventsAndIdleTicks : Prop :=
  (∀ s : State, s.ppu.scanline = 241 → s.ppu.dot = 1 →
    exec .ppuTick s = .next
      { s with ppu := { s.ppu with vblank := true, dot := 2 },
               history := if s.ppu.ctrl.getLsbD 7 then s.history ++ [.nmiSignal] else s.history, reply := .none }) ∧
  (∀ s : State, s.ppu.scanline = 261 → s.ppu.dot = 1 →
    (s.mapper.isSome = true ∨ (s.ppu.mask.getLsbD 3 = false ∧ s.ppu.mask.getLsbD 4 = false)) →
      ∃ nt : Byte, exec .ppuTick s = .next
        { s with ppu := { s.ppu with vblank := false, s0hit := false, overflow := false, dot := 2,
                                     bg := { s.ppu.bg with ntLatch := nt } },
                 reply := .none } ∧
        (s.ppu.mask.getLsbD 3 = false → s.ppu.mask.getLsbD 4 = false → nt = s.ppu.bg.ntLatch)) ∧
  (∀ s : State,
    ((240 ≤ s.ppu.scanline ∧ s.ppu.scanline ≤ 260 ∧ ¬(s.ppu.scanline = 241 ∧ s.ppu.dot = 1)) ∨ s.ppu.dot = 0) →
      dotWork s = some s ∧
      ∃ t, exec .ppuTick s = .next t ∧
        t = { s with ppu := { s.ppu with scanline := t.ppu.scanline, dot := t.ppu.dot }, reply := .none })

/-- Every writer of a status flag (R18, R103, R123, R124, R174). -/
def Obligations.StatusFlagWriters : Prop :=
  ∀ (i : Instr) (s t : State), exec i s = .next t →
    (s.ppu.vblank = false → t.ppu.vblank = true → i = .ppuTick ∧ s.ppu.scanline = 241 ∧ s.ppu.dot = 1) ∧
    (s.ppu.vblank = true → t.ppu.vblank = false →
      (i = .ppuTick ∧ s.ppu.scanline = 261 ∧ s.ppu.dot = 1) ∨ (∃ k, i = .ppustatusR k) ∨ i = .ppuPowerCycle) ∧
    (s.ppu.s0hit = false → t.ppu.s0hit = true →
      i = .ppuTick ∧ s.ppu.scanline < 240 ∧ 1 ≤ s.ppu.dot ∧ s.ppu.dot ≤ 256) ∧
    (s.ppu.s0hit = true → t.ppu.s0hit = false →
      (i = .ppuTick ∧ s.ppu.scanline = 261 ∧ s.ppu.dot = 1) ∨ i = .ppuPowerCycle) ∧
    (s.ppu.overflow = false → t.ppu.overflow = true → i = .ppuTick ∧ s.ppu.scanline < 240 ∧ s.ppu.dot = 256) ∧
    (s.ppu.overflow = true → t.ppu.overflow = false →
      (i = .ppuTick ∧ s.ppu.scanline = 261 ∧ s.ppu.dot = 1) ∨ i = .ppuPowerCycle)

/-- What a tick leaves alone (R121, R132, R143 to R146, R166): the registers of the window, `t`, fine x, the toggle, the
latches, every memory but secondary OAM, the mapper; and each other field but at the dots that write it, so that nothing
else happens in a tick. The status flags, the framebuffer and the position have statements of their own
(`StatusFlagWriters`, `PixelOutput`, `TickAdvancesPosition`). -/
def Obligations.TickFrame : Prop :=
  ∀ s t : State, exec .ppuTick s = .next t →
    let line := s.ppu.scanline
    let d := s.ppu.dot
    let en := s.ppu.mask.getLsbD 3 = true ∨ s.ppu.mask.getLsbD 4 = true
    let group := (1 ≤ d ∧ d ≤ 256) ∨ (321 ≤ d ∧ d ≤ 336)
    t = { s with
          ppu := { t.ppu with
                   ctrl := s.ppu.ctrl, mask := s.ppu.mask, oamAddr := s.ppu.oamAddr, t := s.ppu.t, x := s.ppu.x,
                   w := s.ppu.w, readBuffer := s.ppu.readBuffer, ioLatch := s.ppu.ioLatch },
          soam := t.soam, history := t.history, reply := .none } ∧
    (t.soam = s.soam ∨ (line < 240 ∧ (d = 64 ∨ d = 256) ∧ en)) ∧
    (t.history = s.history ∨ (line = 241 ∧ d = 1)) ∧
    ((t.ppu.soamCount = s.ppu.soamCount ∧ t.ppu.spr0Next = s.ppu.spr0Next) ∨ (line < 240 ∧ d = 256 ∧ en)) ∧
    (t.ppu.units = s.ppu.units ∨ (line < 240 ∧ d = 257 ∧ en)) ∧
    ((t.ppu.unitCount = s.ppu.unitCount ∧ t.ppu.spr0Line = s.ppu.spr0Line) ∨ ((line < 240 ∨ line = 261) ∧ d = 257)) ∧
    ((t.ppu.bg = s.ppu.bg ∧ t.ppu.v = s.ppu.v) ∨ ((line < 240 ∨ line = 261) ∧ en)) ∧
    (t.ppu.bg.ntLatch = s.ppu.bg.ntLatch ∨ (group ∧ d % 8 = 1) ∨ d = 337 ∨ d = 339) ∧
    (t.ppu.bg.atLatch = s.ppu.bg.atLatch ∨ (group ∧ d % 8 = 3)) ∧
    (t.ppu.bg.ptLoLatch = s.ppu.bg.ptLoLatch ∨ (group ∧ d % 8 = 5)) ∧
    (t.ppu.bg.ptHiLatch = s.ppu.bg.ptHiLatch ∨ (group ∧ d % 8 = 7))

/-- What an operation leaves alone whatever it is: the parameters, the loader's metadata, the processor's memory, the
pending transactions. The history only grows, by the events the operation gives (R29, R158, R161); and no operation but a
tick, a power cycle or a reset moves the position, the frame count or the rendering pipeline (R6, R161, R186). The
metadata and the queue are fields of the model (log 1, 7 and 25). -/
def Obligations.OutputsAndPosition : Prop :=
  ∀ (i : Instr) (s t : State), exec i s = .next t →
    t.cfg = s.cfg ∧ t.cartridge = s.cartridge ∧ t.cpuMem = s.cpuMem ∧ t.inbox = s.inbox ∧
    (t.history = s.history ∨
      (t.history = s.history ++ [.nmiSignal] ∧ i = .ppuTick ∧ s.ppu.scanline = 241 ∧ s.ppu.dot = 1 ∧
        s.ppu.ctrl.getLsbD 7 = true) ∨
      (t.history = s.history ++ [.nmiSignal] ∧ ∃ k d, i = .ppuctrlW k d ∧ s.cfg.nmiOnCtrlEnable = true ∧
        s.ppu.vblank = true ∧ s.ppu.ctrl.getLsbD 7 = false ∧ d.getLsbD 7 = true) ∨
      (∃ page, t.history = s.history ++ [.dmaTransfer page] ∧ i = .oamdmaW page)) ∧
    (i ≠ .ppuTick → i ≠ .ppuPowerCycle → i ≠ .ppuReset →
      t.soam = s.soam ∧
      t.ppu = { s.ppu with
                ctrl := t.ppu.ctrl, mask := t.ppu.mask, vblank := t.ppu.vblank, oamAddr := t.ppu.oamAddr,
                v := t.ppu.v, t := t.ppu.t, x := t.ppu.x, w := t.ppu.w, readBuffer := t.ppu.readBuffer,
                ioLatch := t.ppu.ioLatch })

/-! ## Rendering (43_ppu_render.md) -/

/-- R131: a tick with rendering disabled; it raises neither rendering flag (no pixel is a hit, no sprite is evaluated). -/
def Obligations.RenderingDisabledTick : Prop :=
  ∀ s : State, s.ppu.mask.getLsbD 3 = false → s.ppu.mask.getLsbD 4 = false →
    ∃ t, exec .ppuTick s = .next t ∧
      t.ppu.bg = s.ppu.bg ∧ t.ppu.v = s.ppu.v ∧ t.ppu.t = s.ppu.t ∧ t.soam = s.soam ∧
      t.ppu.soamCount = s.ppu.soamCount ∧ t.ppu.spr0Next = s.ppu.spr0Next ∧ t.ppu.units = s.ppu.units ∧
      (¬(s.ppu.scanline = 261 ∧ s.ppu.dot = 1) → t.ppu.overflow = s.ppu.overflow ∧ t.ppu.s0hit = s.ppu.s0hit) ∧
      (s.ppu.scanline < 240 → s.ppu.dot = 257 → t.ppu.unitCount = 0 ∧ t.ppu.spr0Line = false) ∧
      (s.ppu.scanline < 240 → 1 ≤ s.ppu.dot → s.ppu.dot ≤ 256 →
        (Framebuffer.get t.ppu.framebuffer s.ppu.scanline (s.ppu.dot - 1)).toNat =
          s.ppu.mask.toNat / 32 * 64 +
            (if s.ppu.mask.getLsbD 0 then (s.palette.get 0).toNat % 64 / 16 * 16 else (s.palette.get 0).toNat % 64))

/-- R138, R139, R140, and the copy of R141 (its dots are in `ScrollScheduleOfATick`), on the fields of `v`: coarse X with
the horizontal nametable bit is one number modulo 64; fine and coarse Y are one row number; the copies, bit by bit. -/
def Obligations.ScrollIncrementsAndCopies : Prop :=
  (∀ v : BitVec 15,
    (incX v).toNat / 1024 % 2 * 32 + (incX v).toNat % 32 = (v.toNat / 1024 % 2 * 32 + v.toNat % 32 + 1) % 64 ∧
    (incX v).toNat / 2048 = v.toNat / 2048 ∧ (incX v).toNat / 32 % 32 = v.toNat / 32 % 32) ∧
  (∀ v : BitVec 15,
    let last := v.toNat / 4096 = 7
    let cy := v.toNat / 32 % 32
    (incY v).toNat / 4096 + (incY v).toNat / 32 % 32 * 8 =
      (if last ∧ (cy = 29 ∨ cy = 31) then 0 else v.toNat / 4096 + cy * 8 + 1) ∧
    (incY v).toNat / 2048 % 2 = (if last ∧ cy = 29 then 1 - v.toNat / 2048 % 2 else v.toNat / 2048 % 2) ∧
    (incY v).toNat / 1024 % 2 = v.toNat / 1024 % 2 ∧ (incY v).toNat % 32 = v.toNat % 32) ∧
  (∀ (t v : BitVec 15) (j : Nat),
    (copyX t v).getLsbD j = (if j < 5 ∨ j = 10 then t.getLsbD j else v.getLsbD j) ∧
    (copyY t v).getLsbD j = (if j < 5 ∨ j = 10 then v.getLsbD j else t.getLsbD j))

/-- `v` after a tick with rendering enabled, by the dot (R132, with R138 to R141). -/
def Obligations.ScrollScheduleOfATick : Prop :=
  ∀ s t : State, exec .ppuTick s = .next t →
    (s.ppu.mask.getLsbD 3 = true ∨ s.ppu.mask.getLsbD 4 = true) →
      let line := s.ppu.scanline
      let d := s.ppu.dot
      t.ppu.v =
        (if line < 240 ∨ line = 261 then
          if d = 256 then incY (incX s.ppu.v)
          else if d = 257 then copyX s.ppu.t s.ppu.v
          else if d % 8 = 0 ∧ ((1 ≤ d ∧ d ≤ 256) ∨ (321 ≤ d ∧ d ≤ 336)) then incX s.ppu.v
          else if line = 261 ∧ 280 ≤ d ∧ d ≤ 304 then copyY s.ppu.t s.ppu.v
          else s.ppu.v
        else s.ppu.v)

/-- The pre-render line loads the scroll: 340 ticks from (261, 0) with rendering enabled leave in `v` the value of `t`
plus two coarse-X increments, whatever `v` was (R142). -/
def Obligations.PreRenderLineLoadsScroll : Prop :=
  ∀ s : State, s.ppu.scanline = 261 → s.ppu.dot = 0 → s.mapper.isSome = true →
    (s.ppu.mask.getLsbD 3 = true ∨ s.ppu.mask.getLsbD 4 = true) →
      ∃ t, ticks 340 s = .next t ∧ t.ppu.v = incX (incX s.ppu.t) ∧ t.ppu.t = s.ppu.t

/-- R135, R136, R137: what the background fetches of a tick put into the latches, and when; the addresses by the numbers in
`v`'s fields. -/
def Obligations.BackgroundFetchesOfATick : Prop :=
  ∀ s : State, s.mapper.isSome = true → (s.ppu.mask.getLsbD 3 = true ∨ s.ppu.mask.getLsbD 4 = true) →
    (s.ppu.scanline < 240 ∨ s.ppu.scanline = 261) →
      ∃ t, exec .ppuTick s = .next t ∧
        let d := s.ppu.dot
        let v := s.ppu.v.toNat
        let group := (1 ≤ d ∧ d ≤ 256) ∨ (321 ≤ d ∧ d ≤ 336)
        let nt := (group ∧ d % 8 = 1) ∨ d = 337 ∨ d = 339
        let pattern := (if s.ppu.ctrl.getLsbD 4 then 0x1000 else 0) + s.ppu.bg.ntLatch.toNat * 16 + v / 4096
        pattern + 8 ≤ 0x1FFF ∧
        (nt → busRead s (BitVec.ofNat 14 (0x2000 + v % 4096)) = some t.ppu.bg.ntLatch) ∧
        (¬ nt → t.ppu.bg.ntLatch = s.ppu.bg.ntLatch) ∧
        (group ∧ d % 8 = 3 →
          ∃ b, busRead s (BitVec.ofNat 14 (0x23C0 + v / 1024 % 4 * 1024 + v / 128 % 8 * 8 + v / 4 % 8)) = some b ∧
            t.ppu.bg.atLatch.toNat = b.toNat / 2 ^ (v / 64 % 2 * 4 + v / 2 % 2 * 2) % 4) ∧
        (¬(group ∧ d % 8 = 3) → t.ppu.bg.atLatch = s.ppu.bg.atLatch) ∧
        (group ∧ d % 8 = 5 → busRead s (BitVec.ofNat 14 pattern) = some t.ppu.bg.ptLoLatch) ∧
        (¬(group ∧ d % 8 = 5) → t.ppu.bg.ptLoLatch = s.ppu.bg.ptLoLatch) ∧
        (group ∧ d % 8 = 7 → busRead s (BitVec.ofNat 14 (pattern + 8)) = some t.ppu.bg.ptHiLatch) ∧
        (¬(group ∧ d % 8 = 7) → t.ppu.bg.ptHiLatch = s.ppu.bg.ptHiLatch)

/-- R133, R134: the four background shifters after a tick with rendering enabled, bit by bit, and when they shift and
reload. -/
def Obligations.BackgroundShiftersOfATick : Prop :=
  ∀ s t : State, exec .ppuTick s = .next t →
    (s.ppu.mask.getLsbD 3 = true ∨ s.ppu.mask.getLsbD 4 = true) →
    (s.ppu.scanline < 240 ∨ s.ppu.scanline = 261) →
      ∀ j, j < 16 →
        let d := s.ppu.dot
        let shift := (2 ≤ d ∧ d ≤ 257) ∨ (322 ≤ d ∧ d ≤ 337)
        let reload := ((9 ≤ d ∧ d ≤ 257) ∨ (329 ≤ d ∧ d ≤ 337)) ∧ d % 8 = 1
        let bit := fun (r : BitVec 16) (low : Bool) =>
          if reload ∧ j < 8 then low else if shift then decide (0 < j) && r.getLsbD (j - 1) else r.getLsbD j
        t.ppu.bg.bgShiftLo.getLsbD j = bit s.ppu.bg.bgShiftLo (s.ppu.bg.ptLoLatch.getLsbD j) ∧
        t.ppu.bg.bgShiftHi.getLsbD j = bit s.ppu.bg.bgShiftHi (s.ppu.bg.ptHiLatch.getLsbD j) ∧
        t.ppu.bg.atShiftLo.getLsbD j = bit s.ppu.bg.atShiftLo (s.ppu.bg.atLatch.getLsbD 0) ∧
        t.ppu.bg.atShiftHi.getLsbD j = bit s.ppu.bg.atShiftHi (s.ppu.bg.atLatch.getLsbD 1)

/-- The clear of secondary OAM, and the emptying of the sprite units with what follows from it (R143, R146). That the tick at
dot 64, which fetches nothing, completes with no mapper in the slot is the model's reading, DEDUCED in log 14. -/
def Obligations.SecondaryOamClearAndSpriteEmpty : Prop :=
  (∀ s : State, s.ppu.scanline < 240 → s.ppu.dot = 64 →
    (s.ppu.mask.getLsbD 3 = true ∨ s.ppu.mask.getLsbD 4 = true) →
      ∃ t, exec .ppuTick s = .next t ∧ ∀ i, i < 32 → t.soam.get i = 0xFF#8) ∧
  (∀ s t : State, exec .ppuTick s = .next t → s.ppu.dot = 257 →
    (s.ppu.scanline = 261 ∨
      (s.ppu.scanline < 240 ∧ s.ppu.mask.getLsbD 3 = false ∧ s.ppu.mask.getLsbD 4 = false)) →
        t.ppu.unitCount = 0 ∧ t.ppu.spr0Line = false) ∧
  (∀ (p : Ppu) (x : Nat), p.unitCount = 0 → sprPixel p x = none)

/-- Sprite evaluation keeps the first eight of the sprites in range, in OAM order, and sets the overflow flag exactly when
there are more (R144). That the tick at dot 256, which fetches nothing, completes with no mapper in the slot is the model's
reading, DEDUCED in log 14. -/
def Obligations.SpriteEvaluation : Prop :=
  ∀ s : State, s.ppu.scanline < 240 → s.ppu.dot = 256 →
    (s.ppu.mask.getLsbD 3 = true ∨ s.ppu.mask.getLsbD 4 = true) →
      ∃ t, exec .ppuTick s = .next t ∧
        let h : Int := if s.ppu.ctrl.getLsbD 5 then 16 else 8
        let inRange := fun k : Nat =>
          decide (0 ≤ (s.ppu.scanline : Int) - ((s.oam.get (4 * k)).toNat : Int)
            ∧ (s.ppu.scanline : Int) - ((s.oam.get (4 * k)).toNat : Int) < h)
        let found := (List.range 64).filter inRange
        t.ppu.soamCount = min 8 found.length ∧
        (t.ppu.overflow = true ↔ s.ppu.overflow = true ∨ 8 < found.length) ∧
        t.ppu.spr0Next = inRange 0 ∧
        (∀ n j, n < 8 → n < found.length → j < 4 → t.soam.get (4 * n + j) = s.oam.get (4 * found.getD n 0 + j)) ∧
        (∀ i, 4 * min 8 found.length ≤ i → t.soam.get i = s.soam.get i) ∧
        t.oam = s.oam

/-- The sprite units after the tick at dot 257 of a visible line; with rendering disabled they are emptied (R145). That the
tick completes with no mapper in the slot when there is no sprite to load is the model's reading, DEDUCED in log 14. -/
def Obligations.SpriteUnitsLoad : Prop :=
  (∀ s : State, s.ppu.scanline < 240 → s.ppu.dot = 257 → (s.mapper.isSome = true ∨ s.ppu.soamCount = 0) →
    s.ppu.soamCount ≤ 8 →
    (s.ppu.mask.getLsbD 3 = true ∨ s.ppu.mask.getLsbD 4 = true) →
      ∃ t, exec .ppuTick s = .next t ∧
        t.ppu.unitCount = s.ppu.soamCount ∧ t.ppu.spr0Line = s.ppu.spr0Next ∧
        (∀ i, s.ppu.soamCount ≤ i → t.ppu.units[i]? = s.ppu.units[i]?) ∧
        ∀ i, i < s.ppu.soamCount →
          let y := (s.soam.get (4 * i)).toNat
          let tile := (s.soam.get (4 * i + 1)).toNat
          let attr := s.soam.get (4 * i + 2)
          let h : Nat := if s.ppu.ctrl.getLsbD 5 then 16 else 8
          let up := (((s.ppu.scanline : Int) - (y : Int)) % (h : Int)).toNat
          let row := if attr.getLsbD 7 then h - 1 - up else up
          let a :=
            if h = 8 then (if s.ppu.ctrl.getLsbD 3 then 0x1000 else 0) + tile * 16 + row
            else tile % 2 * 0x1000 + (tile / 2 * 2 + row / 8) * 16 + row % 8
          ∃ u, t.ppu.units[i]? = some u ∧ u.x = s.soam.get (4 * i + 3) ∧ u.attr = attr ∧
            busRead s (BitVec.ofNat 14 a) = some u.lo ∧ busRead s (BitVec.ofNat 14 (a + 8)) = some u.hi) ∧
  (∀ s : State, s.ppu.scanline < 240 → s.ppu.dot = 257 → s.ppu.mask.getLsbD 3 = false →
    s.ppu.mask.getLsbD 4 = false →
      ∃ t, exec .ppuTick s = .next t ∧ t.ppu.unitCount = 0 ∧ t.ppu.spr0Line = false ∧ t.ppu.units = s.ppu.units)

/-- R147, R152: the pixel a tick stores, that it stores no other, and that the address is a palette address. The background
and sprite pixel are those of the state after the tick's shift, which is the state the tick leaves. -/
def Obligations.PixelOutput : Prop :=
  ∀ s t : State, exec .ppuTick s = .next t →
    let line := s.ppu.scanline
    let d := s.ppu.dot
    (line < 240 → 1 ≤ d → d ≤ 256 →
      let addr :=
        if s.ppu.mask.getLsbD 3 = true ∨ s.ppu.mask.getLsbD 4 = true then
          compose (bgPixel t.ppu (d - 1)).1 (bgPixel t.ppu (d - 1)).2 (sprPixel t.ppu (d - 1))
        else 0x3F00#14
      (0x3F00 ≤ addr.toNat ∧ addr.toNat ≤ 0x3F1F ∧ (0x3F10 ≤ addr.toNat → addr.toNat % 4 ≠ 0)) ∧
      ∃ b, busRead s addr = some b ∧
        (Framebuffer.get t.ppu.framebuffer line (d - 1)).toNat =
          s.ppu.mask.toNat / 32 * 64 + (if s.ppu.mask.getLsbD 0 then b.toNat % 64 / 16 * 16 else b.toNat % 64)) ∧
    (∀ y x, ¬(y = line ∧ x = d - 1 ∧ line < 240 ∧ 1 ≤ d ∧ d ≤ 256) →
      Framebuffer.get t.ppu.framebuffer y x = Framebuffer.get s.ppu.framebuffer y x)

/-- R148, R149, R151: the background pixel, the sprite pixel (the first unit with an opaque pixel at the column), and the
palette address of the two together. -/
def Obligations.PixelSelection : Prop :=
  (∀ (p : Ppu) (x : Nat),
    ((p.mask.getLsbD 3 = false ∨ (x < 8 ∧ p.mask.getLsbD 1 = false)) → bgPixel p x = (0#2, 0#2)) ∧
    (¬(p.mask.getLsbD 3 = false ∨ (x < 8 ∧ p.mask.getLsbD 1 = false)) →
      let j := 15 - p.x.toNat
      (bgPixel p x).1.toNat = p.bg.bgShiftHi.toNat / 2 ^ j % 2 * 2 + p.bg.bgShiftLo.toNat / 2 ^ j % 2 ∧
      (bgPixel p x).2.toNat = p.bg.atShiftHi.toNat / 2 ^ j % 2 * 2 + p.bg.atShiftLo.toNat / 2 ^ j % 2)) ∧
  (∀ (p : Ppu) (x : Nat) (q : SprPixel),
    let column := fun u : SpriteUnit =>
      if u.x.toNat ≤ x ∧ x ≤ u.x.toNat + 7 then
        let b := if u.attr.getLsbD 6 then x - u.x.toNat else 7 - (x - u.x.toNat)
        u.hi.toNat / 2 ^ b % 2 * 2 + u.lo.toNat / 2 ^ b % 2
      else 0
    sprPixel p x = some q ↔
      p.mask.getLsbD 4 = true ∧ (8 ≤ x ∨ p.mask.getLsbD 2 = true) ∧ q.i < p.unitCount ∧
      (∃ u, p.units[q.i]? = some u ∧ q.attr = u.attr ∧ q.sp.toNat = column u ∧ column u ≠ 0) ∧
      ∀ j, j < q.i → ∀ u, p.units[j]? = some u → column u = 0) ∧
  (∀ (p pal : BitVec 2) (q : SprPixel),
    (p = 0#2 → (compose p pal none).toNat = 0x3F00) ∧
    (p ≠ 0#2 → (compose p pal none).toNat = 0x3F00 + pal.toNat * 4 + p.toNat) ∧
    (p = 0#2 → (compose p pal (some q)).toNat = 0x3F10 + q.attr.toNat % 4 * 4 + q.sp.toNat) ∧
    (p ≠ 0#2 → q.attr.getLsbD 5 = false →
      (compose p pal (some q)).toNat = 0x3F10 + q.attr.toNat % 4 * 4 + q.sp.toNat) ∧
    (p ≠ 0#2 → q.attr.getLsbD 5 = true → (compose p pal (some q)).toNat = 0x3F00 + pal.toNat * 4 + p.toNat))

/-- R150: a tick sets the sprite-0 hit flag exactly when unit 0 holds OAM sprite 0 and its pixel and the background's are
both opaque there; and the flag then stays until the tick at (261, 1) (a power cycle apart). -/
def Obligations.Sprite0HitExactly : Prop :=
  (∀ s t : State, exec .ppuTick s = .next t → s.ppu.s0hit = false →
    let x := s.ppu.dot - 1
    (t.ppu.s0hit = true ↔
      s.ppu.scanline < 240 ∧ 1 ≤ s.ppu.dot ∧ s.ppu.dot ≤ 256 ∧ s.ppu.spr0Line = true ∧
      s.ppu.mask.getLsbD 3 = true ∧ s.ppu.mask.getLsbD 4 = true ∧ (bgPixel t.ppu x).1 ≠ 0#2 ∧
      (∃ q, sprPixel t.ppu x = some q ∧ q.i = 0 ∧ q.sp ≠ 0#2) ∧
      ¬(s.cfg.sprite0X255Excluded = true ∧ x = 255))) ∧
  (∀ (i : Instr) (s t : State), exec i s = .next t → s.ppu.s0hit = true → i ≠ .ppuPowerCycle →
    ¬(i = .ppuTick ∧ s.ppu.scanline = 261 ∧ s.ppu.dot = 1) → t.ppu.s0hit = true)

/-- The source's end-to-end property: with variant 3, all graphics bytes zero and nothing in the pipeline, a frame of
ticks gives one solid colour, the backdrop's, whatever the registers, the nametables and OAM hold (95_test_vectors.md,
P-E2E). -/
def Obligations.SolidFrame : Prop :=
  ∀ (s : State) (m : Mapper) (bank : Byte), s.mapper = some m → m.regs = .cnrom bank → m.chr = [] →
    s.ppu.scanline = 0 → s.ppu.dot = 0 → s.ppu.bg.bgShiftLo = 0 → s.ppu.bg.bgShiftHi = 0 →
    s.ppu.bg.ptLoLatch = 0 → s.ppu.bg.ptHiLatch = 0 → s.ppu.unitCount = 0 →
      ∃ t, ticks 89341 s = .next t ∧
        ∀ y x, y < 240 → x < 256 →
          (Framebuffer.get t.ppu.framebuffer y x).toNat =
            s.ppu.mask.toNat / 32 * 64 +
              (if s.ppu.mask.getLsbD 0 then (s.palette.get 0).toNat % 64 / 16 * 16 else (s.palette.get 0).toNat % 64)

/-! ## The register window (41_ppu_registers.md) -/

/-- R100, R117: reads and peeks of write-only registers and outside the window answer the io latch and change nothing;
writes outside the window do nothing. -/
def Obligations.WriteOnlyReadsAndOutsideWindow : Prop :=
  ∀ (k : BitVec 10) (a : Addr) (d : Byte) (s : State),
    let latch := Host.Outcome.next { s with reply := .byte s.ppu.ioLatch }
    exec (.ppuctrlR k) s = latch ∧ exec (.ppuctrlP k) s = latch ∧ exec (.ppumaskR k) s = latch ∧
    exec (.ppumaskP k) s = latch ∧ exec (.oamaddrR k) s = latch ∧ exec (.oamaddrP k) s = latch ∧
    exec (.ppuscrollR k) s = latch ∧ exec (.ppuscrollP k) s = latch ∧ exec (.ppuaddrR k) s = latch ∧
    exec (.ppuaddrP k) s = latch ∧ exec .oamdmaR s = latch ∧ exec .oamdmaP s = latch ∧
    exec (.winOutsideR a) s = latch ∧ exec (.winOutsideP a) s = latch ∧
    exec (.winOutsideW a d) s = .next { s with reply := .none }

/-- R99: a peek answers what the read answers from the same state, and changes nothing; and but for PPUSTATUS and PPUDATA
the read itself changes no more than the io latch. -/
def Obligations.PeekReturnsWhatReadReturns : Prop :=
  ∀ (r p : Instr) (s t : State), windowPeek? r = some p → exec r s = .next t →
    exec p s = .next { s with reply := t.reply } ∧
    ((∀ k, r ≠ .ppustatusR k) → (∀ k, r ≠ .ppudataR k) →
      t = { s with ppu := { s.ppu with ioLatch := t.ppu.ioLatch }, reply := t.reply })

/-- R101: a PPUCTRL write, `t` bit by bit. -/
def Obligations.PpuctrlWrite : Prop :=
  ∀ (k : BitVec 10) (d : Byte) (s : State), ∃ t' : BitVec 15,
    exec (.ppuctrlW k d) s = .next
      { s with
        ppu := { s.ppu with ioLatch := d, ctrl := d, t := t' },
        history :=
          if s.cfg.nmiOnCtrlEnable = true ∧ s.ppu.ctrl.getLsbD 7 = false ∧ d.getLsbD 7 = true ∧ s.ppu.vblank = true
          then s.history ++ [.nmiSignal] else s.history,
        reply := .none } ∧
    ∀ j, t'.getLsbD j = (if j = 10 then d.getLsbD 0 else if j = 11 then d.getLsbD 1 else s.ppu.t.getLsbD j)

/-- R102, R105, R106: the plain register writes. -/
def Obligations.PlainRegisterWrites : Prop :=
  ∀ (k : BitVec 10) (d : Byte) (s : State),
    exec (.ppumaskW k d) s = .next { s with ppu := { s.ppu with ioLatch := d, mask := d }, reply := .none } ∧
    exec (.ppustatusW k d) s = .next { s with ppu := { s.ppu with ioLatch := d }, reply := .none } ∧
    exec (.oamaddrW k d) s = .next { s with ppu := { s.ppu with ioLatch := d, oamAddr := d }, reply := .none }

/-- R103, R104: the status byte by its bits' weights, the read's side effects, the peek's none. -/
def Obligations.StatusReadAndPeek : Prop :=
  ∀ (k : BitVec 10) (s : State), ∃ r : Byte,
    r.toNat = s.ppu.vblank.toNat * 128 + s.ppu.s0hit.toNat * 64 + s.ppu.overflow.toNat * 32 + s.ppu.ioLatch.toNat % 32 ∧
    exec (.ppustatusR k) s = .next
      { s with ppu := { s.ppu with vblank := false, w := false, ioLatch := r }, reply := .byte r } ∧
    exec (.ppustatusP k) s = .next { s with reply := .byte r }

/-- R107, R108: the OAM data port. -/
def Obligations.OamdataPort : Prop :=
  ∀ (k : BitVec 10) (d : Byte) (s : State),
    let r := s.oam.get s.ppu.oamAddr.toNat
    exec (.oamdataR k) s = .next { s with ppu := { s.ppu with ioLatch := r }, reply := .byte r } ∧
    exec (.oamdataP k) s = .next { s with reply := .byte r } ∧
    ∃ (oam : Memory) (next : Byte),
      exec (.oamdataW k d) s = .next
        { s with oam := oam, ppu := { s.ppu with ioLatch := d, oamAddr := next }, reply := .none } ∧
      next.toNat = (s.ppu.oamAddr.toNat + 1) % 256 ∧
      ∀ j, oam.get j = (if j = s.ppu.oamAddr.toNat then d else s.oam.get j)

/-- R109: the two writes of a PPUSCROLL pair, by fields of `t`, and that two writes bring the toggle back. -/
def Obligations.ScrollPair : Prop :=
  ∀ (k : BitVec 10) (d : Byte) (s : State),
    (s.ppu.w = false → ∃ (t' : BitVec 15) (x' : BitVec 3),
      exec (.ppuscrollW k d) s = .next
        { s with ppu := { s.ppu with ioLatch := d, t := t', x := x', w := true }, reply := .none } ∧
      t'.toNat = s.ppu.t.toNat / 32 * 32 + d.toNat / 8 ∧ x'.toNat = d.toNat % 8) ∧
    (s.ppu.w = true → ∃ t' : BitVec 15,
      exec (.ppuscrollW k d) s = .next
        { s with ppu := { s.ppu with ioLatch := d, t := t', w := false }, reply := .none } ∧
      t'.toNat = d.toNat % 8 * 4096 + s.ppu.t.toNat / 1024 % 4 * 1024 + d.toNat / 8 * 32 + s.ppu.t.toNat % 32) ∧
    (∀ k₂ d₂, ∃ u, execAll [.ppuscrollW k d, .ppuscrollW k₂ d₂] s = .next u ∧ u.ppu.w = s.ppu.w)

/-- R110: the two writes of a PPUADDR pair. -/
def Obligations.AddressPair : Prop :=
  ∀ (k : BitVec 10) (d : Byte) (s : State),
    (s.ppu.w = false → ∃ t' : BitVec 15,
      exec (.ppuaddrW k d) s = .next
        { s with ppu := { s.ppu with ioLatch := d, t := t', w := true }, reply := .none } ∧
      t'.toNat = d.toNat % 64 * 256 + s.ppu.t.toNat % 256) ∧
    (s.ppu.w = true → ∃ t' : BitVec 15,
      exec (.ppuaddrW k d) s = .next
        { s with ppu := { s.ppu with ioLatch := d, t := t', v := t', w := false }, reply := .none } ∧
      t'.toNat = s.ppu.t.toNat / 256 * 256 + d.toNat)

/-- R111, R112: an unbuffered PPUDATA read, and the source's property of an address pair followed by a read, for every
address of the PPU bus. -/
def Obligations.DataPortRead : Prop :=
  (∀ (k : BitVec 10) (s : State) (r : Byte), s.cfg.ppudataReadBuffered = false →
    busRead s (BitVec.ofNat 14 s.ppu.v.toNat) = some r →
      ∃ v' : BitVec 15,
        exec (.ppudataR k) s = .next { s with ppu := { s.ppu with v := v', ioLatch := r }, reply := .byte r } ∧
        v'.toNat = (s.ppu.v.toNat + (if s.ppu.ctrl.getLsbD 2 then 32 else 1)) % 32768) ∧
  (∀ (k₁ k₂ k₃ : BitVec 10) (hi lo : Byte) (a : BusAddr) (s : State) (b : Byte),
    s.cfg.ppudataReadBuffered = false → s.ppu.w = false → a.toNat = hi.toNat % 64 * 256 + lo.toNat →
    busRead s a = some b →
      ∃ u, execAll [.ppuaddrW k₁ hi, .ppuaddrW k₂ lo, .ppudataR k₃] s = .next u ∧ u.reply = .byte b ∧
        u.ppu.v.toNat = a.toNat + (if s.ppu.ctrl.getLsbD 2 then 32 else 1))

/-- A buffered PPUDATA read, and the PPUDATA peek under either parameter (R113, R114). That the buffered peek below $3F00
completes with no mapper in the slot, where R155 lists PPUDATA accesses at $0000-$3EFF, is the model's reading, DEDUCED in
log 13. -/
def Obligations.DataPortBufferedReadAndPeek : Prop :=
  (∀ (k : BitVec 10) (s : State) (b : Byte), s.cfg.ppudataReadBuffered = true → s.ppu.v.toNat % 16384 < 0x3F00 →
    busRead s (BitVec.ofNat 14 s.ppu.v.toNat) = some b →
      ∃ v' : BitVec 15,
        exec (.ppudataR k) s = .next
          { s with ppu := { s.ppu with v := v', readBuffer := b, ioLatch := s.ppu.readBuffer },
                   reply := .byte s.ppu.readBuffer } ∧
        v'.toNat = (s.ppu.v.toNat + (if s.ppu.ctrl.getLsbD 2 then 32 else 1)) % 32768) ∧
  (∀ (k : BitVec 10) (s : State) (r b : Byte), s.cfg.ppudataReadBuffered = true →
    0x3F00 ≤ s.ppu.v.toNat % 16384 → busRead s (BitVec.ofNat 14 s.ppu.v.toNat) = some r →
    busRead s (BitVec.ofNat 14 (s.ppu.v.toNat % 16384 - 0x1000)) = some b →
      ∃ v' : BitVec 15,
        exec (.ppudataR k) s = .next
          { s with ppu := { s.ppu with v := v', readBuffer := b, ioLatch := r }, reply := .byte r } ∧
        v'.toNat = (s.ppu.v.toNat + (if s.ppu.ctrl.getLsbD 2 then 32 else 1)) % 32768) ∧
  (∀ (k : BitVec 10) (s : State), s.cfg.ppudataReadBuffered = true → s.ppu.v.toNat % 16384 < 0x3F00 →
    exec (.ppudataP k) s = .next { s with reply := .byte s.ppu.readBuffer }) ∧
  (∀ (k : BitVec 10) (s : State) (b : Byte),
    (s.cfg.ppudataReadBuffered = false ∨ 0x3F00 ≤ s.ppu.v.toNat % 16384) →
    busRead s (BitVec.ofNat 14 s.ppu.v.toNat) = some b → exec (.ppudataP k) s = .next { s with reply := .byte b })

/-- R115: a PPUDATA write is a PPU bus write at `v[13:0]`, then the increment; the bytes of nametable RAM and palette RAM
it stores to, and no other. -/
def Obligations.DataPortWrite : Prop :=
  ∀ (k : BitVec 10) (d : Byte) (s : State), (s.mapper.isSome = true ∨ 0x3F00 ≤ s.ppu.v.toNat % 16384) →
    let a : BusAddr := BitVec.ofNat 14 s.ppu.v.toNat
    ∃ (v' : BitVec 15) (mapper : Option Mapper) (ntram palette : Memory),
      exec (.ppudataW k d) s = .next
        { s with mapper := mapper, ntram := ntram, palette := palette,
                 ppu := { s.ppu with ioLatch := d, v := v' }, reply := .none } ∧
      v'.toNat = (s.ppu.v.toNat + (if s.ppu.ctrl.getLsbD 2 then 32 else 1)) % 32768 ∧
      mapper = (if a.toNat ≤ 0x1FFF then s.mapper.map (fun m => m.write (BitVec.ofNat 16 a.toNat) d) else s.mapper) ∧
      (∀ j, ntram.get j =
        (if 0x2000 ≤ a.toNat ∧ a.toNat ≤ 0x3EFF ∧ s.mapper.map (fun m => ntIndex a m.mirroring) = some j then d
         else s.ntram.get j)) ∧
      (∀ j, palette.get j = (if 0x3F00 ≤ a.toNat ∧ j = palIndex a then d else s.palette.get j))

/-- R116: OAM DMA. A page of the window is refused; any other records the event and copies 256 bytes, in source order, to
OAM from its start index on, wrapping. `cpuMemRead` is the host's oracle; what it answers is `CpuMemReadAnswers` (R171; log
6 and 22 for what the model adds). -/
def Obligations.OamDma : Prop :=
  ∀ (d : Byte) (s : State),
    (0x20 ≤ d.toNat ∧ d.toNat ≤ 0x3F → exec (.oamdmaW d) s = .refused .dmaFromWindow) ∧
    (¬(0x20 ≤ d.toNat ∧ d.toNat ≤ 0x3F) → ∃ oam : Memory,
      exec (.oamdmaW d) s = .next
        { s with oam := oam, history := s.history ++ [.dmaTransfer d], reply := .none } ∧
      (∀ i, i < 256 →
        oam.get (((if s.cfg.dmaDestStart = .oamaddr then s.ppu.oamAddr.toNat else 0) + i) % 256) =
          cpuMemRead s (BitVec.ofNat 16 (d.toNat * 256 + i))) ∧
      ∀ j, 256 ≤ j → oam.get j = s.oam.get j)

/-- What `CpuMemRead` answers: the byte the host listed for the address in `cpuMem` below $4020, and with no mapper in the
slot anywhere; at $4020 and above, with a mapper, what the read row of its variant answers, which is `CartRead` (R171).
The listing, and its use at $4020 and above with no mapper, are the model's choice (log 6). -/
def Obligations.CpuMemReadAnswers : Prop :=
  ∀ (s : State) (a : Addr),
    (a.toNat < 0x4020 ∨ s.mapper = none →
      ∀ b : Byte, Memory.array 65536 s.cpuMem = true → (a.toNat, b) ∈ s.cpuMem → cpuMemRead s a = b) ∧
    (∀ m : Mapper, s.mapper = some m → 0x4020 ≤ a.toNat →
      exec (decodeCartR m.variant a) s = .next { s with reply := .byte (cpuMemRead s a) })

/-! ## The PPU bus (20_memory.md) -/

/-- R41: reads, peeks and writes of the PPU bus. In the pattern range they are `CART` operations at the same address on
the variant in the slot; nametable and palette RAM are read and written at the indices of R42 and R43. A write stores to
that one byte and no other; a read changes nothing. -/
def Obligations.PpuBusAccess : Prop :=
  ∀ (s : State) (d : Byte),
    (∀ (m : Mapper) (o : BitVec 13), s.mapper = some m →
      exec (.pbusPtR o) s = .next { s with reply := .byte (m.read s.cfg (chrAddr o)) } ∧
      exec (.pbusPtP o) s = .next { s with reply := .byte (m.read s.cfg (chrAddr o)) } ∧
      exec (.pbusPtW o d) s = .next { s with mapper := some (m.write (chrAddr o) d), reply := .none } ∧
      exec (.pbusPtR o) s = exec (decodeCartR m.variant (chrAddr o)) s ∧
      exec (.pbusPtW o d) s = exec (decodeCartW m.variant (chrAddr o) d) s) ∧
    (∀ (m : Mapper) (o : BitVec 13), s.mapper = some m → o.toNat < 0x1F00 →
      let i := ntIndex (BitVec.ofNat 14 (0x2000 + o.toNat)) m.mirroring
      exec (.pbusNtR o) s = .next { s with reply := .byte (s.ntram.get i) } ∧
      exec (.pbusNtP o) s = .next { s with reply := .byte (s.ntram.get i) } ∧
      ∃ ntram : Memory, exec (.pbusNtW o d) s = .next { s with ntram := ntram, reply := .none } ∧
        ∀ j, ntram.get j = (if j = i then d else s.ntram.get j)) ∧
    (∀ o : BitVec 8,
      let i := palIndex (BitVec.ofNat 14 (0x3F00 + o.toNat))
      exec (.pbusPalR o) s = .next { s with reply := .byte (s.palette.get i) } ∧
      exec (.pbusPalP o) s = .next { s with reply := .byte (s.palette.get i) } ∧
      ∃ palette : Memory, exec (.pbusPalW o d) s = .next { s with palette := palette, reply := .none } ∧
        ∀ j, palette.get j = (if j = i then d else s.palette.get j))

/-- R42, R43: the nametable index, and which addresses alias under each topology; the palette index. -/
def Obligations.BusIndices : Prop :=
  (∀ a : BusAddr, 0x2000 ≤ a.toNat → a.toNat ≤ 0x3EFF →
    let table := a.toNat / 1024 % 4
    ntIndex a .vertical = table % 2 * 1024 + a.toNat % 1024 ∧
    ntIndex a .horizontal = table / 2 * 1024 + a.toNat % 1024 ∧
    ntIndex a .singleLower = a.toNat % 1024 ∧
    ntIndex a .singleUpper = 1024 + a.toNat % 1024 ∧
    ntIndex a .fourScreen = a.toNat % 4096) ∧
  (∀ a : BusAddr, 0x3F00 ≤ a.toNat →
    palIndex a = (if 16 ≤ a.toNat % 32 ∧ a.toNat % 4 = 0 then a.toNat % 32 - 16 else a.toNat % 32))

/-! ## The mapper (40_mapper.md) -/

/-- R64, R69, with R63: for every address the read row and the peek row of the variant in the slot answer the same byte,
`CartRead`'s, and change nothing; at an address no range holds the byte is `UNMAPPED_READ`'s and a write does nothing. -/
def Obligations.CartridgePeekIsRead : Prop :=
  ∀ (s : State) (m : Mapper) (a : Addr), s.mapper = some m →
    exec (decodeCartR m.variant a) s = .next { s with reply := .byte (m.read s.cfg a) } ∧
    exec (decodeCartP m.variant a) s = .next { s with reply := .byte (m.read s.cfg a) } ∧
    (m.variant.maps a = false →
      m.read s.cfg a = Memory.get s.cfg.unmappedRead a.toNat ∧
      ∀ d, exec (decodeCartW m.variant a d) s = .next { s with reply := .none })

/-- R76 to R79: variant 0. Every row but the graphics write leaves the mapper as it is; that one changes one byte of
CHR-RAM, and nothing of CHR-ROM. -/
def Obligations.NromRows : Prop :=
  ∀ (s : State) (m : Mapper), s.mapper = some m → m.regs = .nrom →
    (∀ o : BitVec 13, exec (.nromChrR o) s = .next { s with reply := .byte (m.chr.get o.toNat) }) ∧
    (∀ (o : BitVec 13) (d : Byte), ∃ chr : Memory,
      exec (.nromChrW o d) s = .next { s with mapper := some { m with chr := chr }, reply := .none } ∧
      ∀ j, chr.get j = (if m.chrSize = 0 ∧ j = o.toNat then d else m.chr.get j)) ∧
    (∀ o : BitVec 15, exec (.nromPrgR o) s = .next
      { s with reply := .byte (m.prg.get
          ((if o.toNat < 0x4000 then 0 else 1 % (m.prgSize / 16384)) * 16384 + o.toNat % 16384)) }) ∧
    (∀ (o : BitVec 15) (d : Byte), exec (.nromPrgW o d) s = .next { s with reply := .none }) ∧
    (∀ (a : Addr) (d : Byte), exec (.nromUnmappedW a d) s = .next { s with reply := .none }) ∧
    (∀ a : Addr,
      exec (.nromUnmappedR a) s = .next { s with reply := .byte (Memory.get s.cfg.unmappedRead a.toNat) } ∧
      exec (.nromPeek a) s = .next { s with reply := .byte (m.read s.cfg a) })

/-- R88 to R90: variant 2. -/
def Obligations.UxromRows : Prop :=
  ∀ (s : State) (m : Mapper) (bank : Byte), s.mapper = some m → m.regs = .uxrom bank →
    (∀ (o : BitVec 15) (d : Byte),
      exec (.uxromWBank o d) s = .next { s with mapper := some { m with regs := .uxrom d }, reply := .none }) ∧
    (∀ o : BitVec 14, exec (.uxromPrgLoR o) s = .next
      { s with reply := .byte (m.prg.get (bank.toNat % (m.prgSize / 16384) * 16384 + o.toNat)) }) ∧
    (∀ o : BitVec 14, exec (.uxromPrgHiR o) s = .next
      { s with reply := .byte (m.prg.get ((m.prgSize / 16384 - 1) * 16384 + o.toNat)) }) ∧
    (∀ o : BitVec 13, exec (.uxromChrR o) s = .next { s with reply := .byte (m.chr.get o.toNat) }) ∧
    (∀ (o : BitVec 13) (d : Byte), ∃ chr : Memory,
      exec (.uxromChrW o d) s = .next { s with mapper := some { m with chr := chr }, reply := .none } ∧
      ∀ j, chr.get j = (if m.chrSize = 0 ∧ j = o.toNat then d else m.chr.get j)) ∧
    (∀ (a : Addr) (d : Byte),
      exec (.uxromUnmappedR a) s = .next { s with reply := .byte (Memory.get s.cfg.unmappedRead a.toNat) } ∧
      exec (.uxromUnmappedW a d) s = .next { s with reply := .none } ∧
      exec (.uxromPeek a) s = .next { s with reply := .byte (m.read s.cfg a) })

/-- R92 to R95: variant 3. With more than two program banks R39's table has another bank at $C000 than R95; the parameter
that picks R95's is a hypothesis there (log 30), and the other reading is in `CnromSourceProperties`. -/
def Obligations.CnromRows : Prop :=
  ∀ (s : State) (m : Mapper) (bank : Byte), s.mapper = some m → m.regs = .cnrom bank →
    let window := bank.toNat % (max m.chrSize 8192 / 8192) * 8192
    (∀ (o : BitVec 15) (d : Byte),
      exec (.cnromWBank o d) s = .next { s with mapper := some { m with regs := .cnrom d }, reply := .none }) ∧
    (∀ p : BitVec 13, exec (.cnromChrR p) s = .next { s with reply := .byte (m.chr.get (window + p.toNat)) }) ∧
    (∀ (p : BitVec 13) (d : Byte), ∃ chr : Memory,
      exec (.cnromChrW p d) s = .next { s with mapper := some { m with chr := chr }, reply := .none } ∧
      ∀ j, chr.get j = (if m.chrSize = 0 ∧ j = window + p.toNat then d else m.chr.get j)) ∧
    (s.cfg.cnromHighWindow = .bankOne ∨ m.prgSize / 16384 = 1 ∨ m.prgSize / 16384 = 2 →
      ∀ o : BitVec 15, exec (.cnromPrgR o) s = .next
        { s with reply := .byte (m.prg.get
            ((if o.toNat < 0x4000 then 0 else 1 % (m.prgSize / 16384)) * 16384 + o.toNat % 16384)) }) ∧
    (∀ (a : Addr) (d : Byte),
      exec (.cnromUnmappedR a) s = .next { s with reply := .byte (Memory.get s.cfg.unmappedRead a.toNat) } ∧
      exec (.cnromUnmappedW a d) s = .next { s with reply := .none } ∧
      exec (.cnromPeek a) s = .next { s with reply := .byte (m.read s.cfg a) })

/-- The source's two properties of variant 3, through sessions: any value written anywhere in the control range selects
`value mod bank_count` for the next pattern read, over the cartridge bus and over the PPU bus; and no number of control
writes changes a program read (95_test_vectors.md, P-CNROM and P-PRG). And a program read where the parameter picks the
reading of R39's table and R177, the last bank at $C000 (log 30). -/
def Obligations.CnromSourceProperties : Prop :=
  (∀ (s : State) (m : Mapper) (bank v : Byte) (o : BitVec 15) (p : BitVec 13),
    s.mapper = some m → m.regs = .cnrom bank →
      let b := m.chr.get (v.toNat % (max m.chrSize 8192 / 8192) * 8192 + p.toNat)
      ∃ t, execAll [.cnromWBank o v, .pbusPtR p] s = .next t ∧ t.reply = .byte b ∧
        ∃ u, execAll [.cnromWBank o v, .cnromChrR p] s = .next u ∧ u.reply = .byte b) ∧
  (∀ (writes : List Instr) (s : State) (m : Mapper) (bank : Byte) (o : BitVec 15),
    s.mapper = some m → m.regs = .cnrom bank → (∀ i ∈ writes, ∃ a d, i = .cnromWBank a d) →
      ∃ b t u, exec (.cnromPrgR o) s = .next { s with reply := .byte b } ∧ execAll writes s = .next t ∧
        exec (.cnromPrgR o) t = .next u ∧ u.reply = .byte b) ∧
  (∀ (s : State) (m : Mapper) (bank : Byte) (o : BitVec 15),
    s.mapper = some m → m.regs = .cnrom bank → s.cfg.cnromHighWindow = .lastBank →
      exec (.cnromPrgR o) s = .next
        { s with reply := .byte (m.prg.get
            ((if o.toNat < 0x4000 then 0 else m.prgSize / 16384 - 1) * 16384 + o.toNat % 16384)) })

/-- R81, R84, R85, R86: variant 1's reads, its PRG-RAM and its graphics write, with the bank numbers in full. -/
def Obligations.Mmc1Rows : Prop :=
  ∀ (s : State) (m : Mapper) (r : Mmc1), s.mapper = some m → m.regs = .mmc1 r →
    let n16 := m.prgSize / 16384
    let p := r.prg.toNat % 16
    let mode := r.control.toNat / 4 % 4
    let lo16 := if mode ≤ 1 then p - p % 2 else if mode = 2 then 0 else p
    let hi16 := if mode ≤ 1 then p - p % 2 + 1 else if mode = 2 then p else n16 - 1
    let n4 := 2 * (max m.chrSize 8192 / 8192)
    let split := r.control.getLsbD 4 = true
    let lo4 := if split then r.chr0.toNat else r.chr0.toNat - r.chr0.toNat % 2
    let hi4 := if split then r.chr1.toNat else r.chr0.toNat - r.chr0.toNat % 2 + 1
    (∀ o : BitVec 13, exec (.mmc1PrgramR o) s = .next { s with reply := .byte (r.prgram.get o.toNat) }) ∧
    (∀ (o : BitVec 13) (d : Byte), ∃ prgram : Memory,
      exec (.mmc1PrgramW o d) s = .next
        { s with mapper := some { m with regs := .mmc1 { r with prgram := prgram } }, reply := .none } ∧
      ∀ j, prgram.get j = (if j = o.toNat then d else r.prgram.get j)) ∧
    (∀ o : BitVec 14,
      exec (.mmc1PrgLoR o) s = .next { s with reply := .byte (m.prg.get (lo16 % n16 * 16384 + o.toNat)) } ∧
      exec (.mmc1PrgHiR o) s = .next { s with reply := .byte (m.prg.get (hi16 % n16 * 16384 + o.toNat)) }) ∧
    (∀ o : BitVec 12,
      exec (.mmc1ChrLoR o) s = .next { s with reply := .byte (m.chr.get (lo4 % n4 * 4096 + o.toNat)) } ∧
      exec (.mmc1ChrHiR o) s = .next { s with reply := .byte (m.chr.get (hi4 % n4 * 4096 + o.toNat)) }) ∧
    (∀ (o : BitVec 13) (d : Byte), ∃ chr : Memory,
      exec (.mmc1ChrW o d) s = .next { s with mapper := some { m with chr := chr }, reply := .none } ∧
      ∀ j, chr.get j =
        (if m.chrSize = 0 ∧ j = (if o.toNat < 4096 then lo4 else hi4) % n4 * 4096 + o.toNat % 4096 then d
         else m.chr.get j)) ∧
    (∀ (a : Addr) (d : Byte),
      exec (.mmc1UnmappedR a) s = .next { s with reply := .byte (Memory.get s.cfg.unmappedRead a.toNat) } ∧
      exec (.mmc1UnmappedW a d) s = .next { s with reply := .none } ∧
      exec (.mmc1Peek a) s = .next { s with reply := .byte (m.read s.cfg a) })

/-- R82, R83: one write of variant 1's serial load port, the four rows `MMC1_W_CTRL`, `MMC1_W_CHR0`, `MMC1_W_CHR1` and
`MMC1_W_PRG`: the reset write, the first four writes, the fifth with its commit. -/
def Obligations.Mmc1SerialPort : Prop :=
  ∀ (s : State) (m : Mapper) (r : Mmc1) (o : BitVec 13) (d : Byte), s.mapper = some m → m.regs = .mmc1 r →
    ∃ v : BitVec 5, v.toNat = r.shift.toNat / 2 + d.toNat % 2 * 16 ∧
      let after := fun r' : Mmc1 =>
        (Host.Outcome.next { s with mapper := some { m with regs := .mmc1 r' }, reply := .none } :
          Host.Outcome State Fault Refusal)
      (d.getLsbD 7 = true → ∀ sel, exec (serialPort sel o d) s =
        after { r with shift := 0, count := 0, control := r.control ||| 0x0C#5 }) ∧
      (d.getLsbD 7 = false → r.count ≠ 4 → ∀ sel, exec (serialPort sel o d) s =
        after { r with shift := v, count := r.count + 1 }) ∧
      (d.getLsbD 7 = false → r.count = 4 →
        exec (.mmc1WCtrl o d) s = after { r with shift := 0, count := 0, control := v } ∧
        exec (.mmc1WChr0 o d) s = after { r with shift := 0, count := 0, chr0 := v } ∧
        exec (.mmc1WChr1 o d) s = after { r with shift := 0, count := 0, chr1 := v } ∧
        exec (.mmc1WPrg o d) s = after { r with shift := 0, count := 0, prg := v })

/-- Five writes without the reset bit load one register: the fifth write's address picks it, the five low data bits are
its value, least significant first, whatever the first four addresses, the other data bits and the old shift register
were (R82, R83, R184). -/
def Obligations.FiveWritesLoadRegister : Prop :=
  ∀ (s : State) (m : Mapper) (r : Mmc1) (q₁ q₂ q₃ q₄ sel : BitVec 2) (o₁ o₂ o₃ o₄ o₅ : BitVec 13)
    (d₁ d₂ d₃ d₄ d₅ : Byte), s.mapper = some m → m.regs = .mmc1 r → r.count = 0 →
    (∀ d ∈ [d₁, d₂, d₃, d₄, d₅], d.getLsbD 7 = false) →
      ∃ (r' : Mmc1) (v : BitVec 5),
        execAll [serialPort q₁ o₁ d₁, serialPort q₂ o₂ d₂, serialPort q₃ o₃ d₃, serialPort q₄ o₄ d₄,
            serialPort sel o₅ d₅] s =
          .next { s with mapper := some { m with regs := .mmc1 r' }, reply := .none } ∧
        v.toNat = d₁.toNat % 2 + d₂.toNat % 2 * 2 + d₃.toNat % 2 * 4 + d₄.toNat % 2 * 8 + d₅.toNat % 2 * 16 ∧
        r'.shift = 0 ∧ r'.count = 0 ∧ r'.prgram = r.prgram ∧
        r'.control = (if sel = 0#2 then v else r.control) ∧ r'.chr0 = (if sel = 1#2 then v else r.chr0) ∧
        r'.chr1 = (if sel = 2#2 then v else r.chr1) ∧ r'.prg = (if sel = 3#2 then v else r.prg)

/-- R66, R67, R80, R87: `mirroring()` and the mapper's `tick()`. -/
def Obligations.MirroringAndMapperTick : Prop :=
  ∀ (s : State) (m : Mapper), s.mapper = some m →
    exec .mapTick s = .next { s with reply := .none } ∧
    ∃ τ : Topology, exec .mapMirroring s = .next { s with reply := .topology τ } ∧
      (m.hint = .fourScreen → τ = .fourScreen) ∧
      (∀ r, m.regs = .mmc1 r → m.hint ≠ .fourScreen →
        τ = (if r.control.toNat % 4 = 0 then .singleLower else if r.control.toNat % 4 = 1 then .singleUpper
             else if r.control.toNat % 4 = 2 then .vertical else .horizontal)) ∧
      ((∀ r, m.regs ≠ .mmc1 r) →
        (m.hint = .horizontal → τ = .horizontal) ∧ (m.hint = .vertical → τ = .vertical))

/-- R71, R73, R74, R173: the factory's outcomes in their order, and what `MAP.NEW` does to the machine: nothing on a
failure, a new mapper and a resized nametable RAM on success. -/
def Obligations.FactoryOutcomes : Prop :=
  ∀ (id : Byte) (s : State),
    let md := s.cartridge
    let ok := md.valid = true ∧ md.prgSize ≠ 0 ∧ md.prgSize % 16384 = 0 ∧ md.chrSize % 8192 = 0 ∧
      md.prgBytes.len = md.prgSize ∧ md.chrBytes.len = md.chrSize
    (¬ ok → exec (.mapFactory id) s = .next { s with reply := .factory .invalid }) ∧
    (ok → 4 ≤ id.toNat → exec (.mapFactory id) s = .next { s with reply := .factory .unsupported }) ∧
    (ok → id.toNat < 4 → ∃ (m : Mapper) (ntram : Memory),
      exec (.mapFactory id) s = .next { s with mapper := some m, ntram := ntram, reply := .factory .ok } ∧
      m.prgSize = md.prgSize ∧ m.chrSize = md.chrSize ∧ m.hint = md.hint ∧ (∀ j, m.prg.get j = md.prgBytes.bytes.get j) ∧
      (∀ j, m.chr.get j = (if md.chrSize = 0 then 0#8 else md.chrBytes.bytes.get j)) ∧
      (id = 0#8 → m.regs = .nrom) ∧ (id = 2#8 → m.regs = .uxrom 0) ∧ (id = 3#8 → m.regs = .cnrom 0) ∧
      (id = 1#8 → ∃ r, m.regs = .mmc1 r ∧ r.shift = 0 ∧ r.count = 0 ∧ r.control = 0x0C#5 ∧ r.chr0 = 0 ∧ r.chr1 = 0 ∧
        r.prg = 0 ∧ ∀ j, r.prgram.get j = 0#8) ∧
      (∀ j, j < 2048 → ntram.get j = s.ntram.get j) ∧
      (∃ τ, execAll [.mapFactory id, .mapMirroring] s = .next τ ∧
        ((τ.reply = .topology .fourScreen → Cells.below 4096 ntram = true) ∧
         (τ.reply ≠ .topology .fourScreen → Cells.below 2048 ntram = true))))

/-- Only the factory replaces a mapper, and only writes change one: the program data, the sizes, the hint, the variant and
CHR-ROM never change; and an operation that is not a write leaves the mapper as it is (R7, R31, R65, R72, R176). -/
def Obligations.MapperChangesOnlyByWrites : Prop :=
  ∀ (i : Instr) (s t : State), exec i s = .next t → (∀ id, i ≠ .mapFactory id) →
    (s.mapper = none → t.mapper = none) ∧
    (∀ m, s.mapper = some m → ∃ m', t.mapper = some m' ∧ m'.prg = m.prg ∧ m'.prgSize = m.prgSize ∧
      m'.chrSize = m.chrSize ∧ m'.hint = m.hint ∧ m'.variant = m.variant ∧ (m.chrSize ≠ 0 → m'.chr = m.chr) ∧
      (writesMapper i = false → m' = m))
end

