-- ==== Sys2Proof/Laws/Cells.lean ====
section
/-! SUPPORT. Read after write, and that every memory operation keeps the canonical form. -/

namespace Sys2Proof.Machine

variable {α : Type}

/-! ## Read after write -/

@[simp] theorem Cells.get_nil (d : α) (k : Nat) : Cells.get d k ([] : Cells α) = d := rfl

@[simp] theorem Cells.get_put_same (d x : α) (k : Nat) (m : Cells α) : Cells.get d k (Cells.put k x m) = x := by
  induction m with
  | nil => simp [Cells.put, Cells.get]
  | cons c m ih =>
    simp only [Cells.put]
    split
    · simp [Cells.get]
    · split
      · simp [Cells.get]
      · simp_all [Cells.get]

theorem Cells.get_put_other (d x : α) {k j : Nat} (h : j ≠ k) (m : Cells α) :
    Cells.get d j (Cells.put k x m) = Cells.get d j m := by
  induction m with
  | nil => simp [Cells.put, Cells.get, Ne.symm h]
  | cons c m ih =>
    simp only [Cells.put]
    split
    · simp [Cells.get, Ne.symm h]
    · split
      · next hc => simp [Cells.get, hc, Ne.symm h]
      · simp [Cells.get, ih]

@[simp] theorem Cells.get_drop_same (d : α) (k : Nat) (m : Cells α) : Cells.get d k (Cells.drop k m) = d := by
  induction m with
  | nil => rfl
  | cons c m ih =>
    simp only [Cells.drop]
    split
    · exact ih
    · simp_all [Cells.get]

theorem Cells.get_drop_other (d : α) {k j : Nat} (h : j ≠ k) (m : Cells α) :
    Cells.get d j (Cells.drop k m) = Cells.get d j m := by
  induction m with
  | nil => rfl
  | cons c m ih =>
    simp only [Cells.drop]
    split
    · next hc => simp [Cells.get, ih, hc, Ne.symm h]
    · simp [Cells.get, ih]

variable [DecidableEq α]

/-- A read after a write to the same key gives the value written. -/
@[simp] theorem Cells.get_set_same (d x : α) (k : Nat) (m : Cells α) : Cells.get d k (Cells.set d k x m) = x := by
  unfold Cells.set
  split
  · next h => simp [h]
  · simp

/-- A write leaves every other key alone. -/
theorem Cells.get_set_other (d x : α) {k j : Nat} (h : j ≠ k) (m : Cells α) :
    Cells.get d j (Cells.set d k x m) = Cells.get d j m := by
  unfold Cells.set
  split
  · exact Cells.get_drop_other d h m
  · exact Cells.get_put_other d x h m

/-- Both at once. -/
theorem Cells.get_set (d x : α) (k j : Nat) (m : Cells α) :
    Cells.get d j (Cells.set d k x m) = if j = k then x else Cells.get d j m := by
  split
  · next h => subst h; simp
  · next h => exact Cells.get_set_other d x h m

/-! ## The canonical form -/

theorem Cells.wfFrom_cons {d : α} {lo a : Nat} {x : α} {m : Cells α} :
    Cells.wfFrom d lo ((a, x) :: m) = true ↔ lo ≤ a ∧ x ≠ d ∧ Cells.wfFrom d (a + 1) m = true := by
  simp [Cells.wfFrom, and_assoc]

theorem Cells.wfFrom_mono {d : α} {lo hi : Nat} (h : lo ≤ hi) {m : Cells α} (w : Cells.wfFrom d hi m = true) :
    Cells.wfFrom d lo m = true := by
  cases m with
  | nil => rfl
  | cons c m =>
    obtain ⟨a, x⟩ := c
    rw [Cells.wfFrom_cons] at w ⊢
    exact ⟨by omega, w.2⟩

theorem Cells.wfFrom_put {d x : α} (hx : x ≠ d) {lo k : Nat} (hk : lo ≤ k) {m : Cells α}
    (w : Cells.wfFrom d lo m = true) : Cells.wfFrom d lo (Cells.put k x m) = true := by
  induction m generalizing lo with
  | nil => simp [Cells.put, Cells.wfFrom, hx, hk]
  | cons c m ih =>
    obtain ⟨a, y⟩ := c
    rw [Cells.wfFrom_cons] at w
    simp only [Cells.put]
    split
    · exact Cells.wfFrom_cons.mpr ⟨hk, hx, Cells.wfFrom_cons.mpr ⟨by omega, w.2⟩⟩
    · split
      · next h => exact Cells.wfFrom_cons.mpr ⟨hk, hx, h ▸ w.2.2⟩
      · exact Cells.wfFrom_cons.mpr ⟨w.1, w.2.1, ih (by omega) w.2.2⟩

theorem Cells.wfFrom_drop {d : α} {lo k : Nat} {m : Cells α} (w : Cells.wfFrom d lo m = true) :
    Cells.wfFrom d lo (Cells.drop k m) = true := by
  induction m generalizing lo with
  | nil => rfl
  | cons c m ih =>
    obtain ⟨a, y⟩ := c
    rw [Cells.wfFrom_cons] at w
    simp only [Cells.drop]
    split
    · exact Cells.wfFrom_mono (by omega) (ih w.2.2)
    · exact Cells.wfFrom_cons.mpr ⟨w.1, w.2.1, ih w.2.2⟩

/-- A write keeps the canonical form. -/
theorem Cells.wf_set {d x : α} {k : Nat} {m : Cells α} (w : Cells.wf d m = true) :
    Cells.wf d (Cells.set d k x m) = true := by
  unfold Cells.set
  split
  · exact Cells.wfFrom_drop w
  · next h => exact Cells.wfFrom_put h (Nat.zero_le _) w

theorem Cells.wfFrom_filter {d : α} {lo : Nat} (p : Nat × α → Bool) {m : Cells α}
    (w : Cells.wfFrom d lo m = true) : Cells.wfFrom d lo (m.filter p) = true := by
  induction m generalizing lo with
  | nil => rfl
  | cons c m ih =>
    obtain ⟨a, y⟩ := c
    rw [Cells.wfFrom_cons] at w
    rw [List.filter_cons]
    split
    · exact Cells.wfFrom_cons.mpr ⟨w.1, w.2.1, ih w.2.2⟩
    · exact Cells.wfFrom_mono (by omega) (ih w.2.2)

/-- Sizing a memory down keeps the canonical form. -/
theorem Cells.wf_truncate {d : α} {n : Nat} {m : Cells α} (w : Cells.wf d m = true) :
    Cells.wf d (Cells.truncate n m) = true := Cells.wfFrom_filter _ w

omit [DecidableEq α] in
theorem Cells.below_put {n k : Nat} {x : α} {m : Cells α} (hk : k < n) (b : Cells.below n m = true) :
    Cells.below n (Cells.put k x m) = true := by
  induction m with
  | nil => simpa [Cells.put, Cells.below] using hk
  | cons c m ih =>
    simp only [Cells.below, List.all_cons, Bool.and_eq_true, decide_eq_true_eq] at b ih
    simp only [Cells.put]
    split
    · simp [Cells.below, hk, b.1]; simpa using b.2
    · split
      · simp [Cells.below, hk]; simpa using b.2
      · simp only [Cells.below, List.all_cons, Bool.and_eq_true, decide_eq_true_eq]; exact ⟨b.1, ih b.2⟩

omit [DecidableEq α] in
theorem Cells.below_drop {n k : Nat} {m : Cells α} (b : Cells.below n m = true) :
    Cells.below n (Cells.drop k m) = true := by
  induction m with
  | nil => rfl
  | cons c m ih =>
    simp only [Cells.below, List.all_cons, Bool.and_eq_true, decide_eq_true_eq] at b ih
    simp only [Cells.drop]
    split
    · exact ih b.2
    · simp only [Cells.below, List.all_cons, Bool.and_eq_true, decide_eq_true_eq]; exact ⟨b.1, ih b.2⟩

/-- A write at a key below the bound keeps the bound. -/
theorem Cells.below_set {d x : α} {n k : Nat} {m : Cells α} (hk : k < n) (b : Cells.below n m = true) :
    Cells.below n (Cells.set d k x m) = true := by
  unfold Cells.set
  split
  · exact Cells.below_drop b
  · exact Cells.below_put hk b

omit [DecidableEq α] in
theorem Cells.below_truncate (n : Nat) (m : Cells α) : Cells.below n (Cells.truncate n m) = true := by
  simp [Cells.below, Cells.truncate]

omit [DecidableEq α] in
theorem Cells.below_mono {n k : Nat} (h : n ≤ k) {m : Cells α} (b : Cells.below n m = true) :
    Cells.below k m = true := by
  simp only [Cells.below, List.all_eq_true, decide_eq_true_eq] at b ⊢
  exact fun c hc => by have := b c hc; omega

omit [DecidableEq α] in
theorem Cells.get_of_lt {d : α} [DecidableEq α] {lo k : Nat} {m : Cells α} (w : Cells.wfFrom d lo m = true)
    (h : k < lo) : Cells.get d k m = d := by
  induction m generalizing lo with
  | nil => rfl
  | cons c m ih =>
    obtain ⟨a, y⟩ := c
    rw [Cells.wfFrom_cons] at w
    have : a ≠ k := by omega
    simp only [Cells.get, this, if_false]
    exact ih w.2.2 (by omega)

/-- In the canonical form a listed entry is what its key reads as. -/
theorem Cells.get_of_mem {d x : α} {lo k : Nat} {m : Cells α} (w : Cells.wfFrom d lo m = true)
    (h : (k, x) ∈ m) : lo ≤ k ∧ Cells.get d k m = x := by
  induction m generalizing lo with
  | nil => cases h
  | cons c m ih =>
    obtain ⟨a, y⟩ := c
    obtain ⟨ha, -, hm⟩ := Cells.wfFrom_cons.1 w
    obtain ⟨rfl, rfl⟩ | h := (List.mem_cons.1 h).imp_left Prod.mk.inj
    · exact ⟨ha, by simp [Cells.get]⟩
    · obtain ⟨hk, hx⟩ := ih hm h
      exact ⟨by omega, by rw [Cells.get, if_neg (by omega), hx]⟩

/-- Canonical contents that read alike are equal data. -/
theorem Cells.ext_wfFrom {d : α} {lo : Nat} {m n : Cells α} (wm : Cells.wfFrom d lo m = true)
    (wn : Cells.wfFrom d lo n = true) (h : ∀ k, Cells.get d k m = Cells.get d k n) : m = n := by
  induction m generalizing lo n with
  | nil =>
    cases n with
    | nil => rfl
    | cons c n =>
      obtain ⟨a, y⟩ := c
      rw [Cells.wfFrom_cons] at wn
      exact absurd ((h a).symm.trans rfl) (by simpa [Cells.get] using wn.2.1)
  | cons c m ih =>
    obtain ⟨a, x⟩ := c
    rw [Cells.wfFrom_cons] at wm
    cases n with
    | nil => exact absurd (h a) (by simpa [Cells.get] using wm.2.1)
    | cons e n =>
      obtain ⟨b, y⟩ := e
      rw [Cells.wfFrom_cons] at wn
      have hab : a = b := by
        rcases Nat.lt_trichotomy a b with hlt | heq | hgt
        · have := h a
          rw [Cells.get_of_lt (Cells.wfFrom_cons.mpr ⟨Nat.le_refl b, wn.2⟩) hlt] at this
          exact absurd this (by simpa [Cells.get] using wm.2.1)
        · exact heq
        · have := h b
          rw [Cells.get_of_lt (Cells.wfFrom_cons.mpr ⟨Nat.le_refl a, wm.2⟩) hgt] at this
          exact absurd this.symm (by simpa [Cells.get] using wn.2.1)
      subst hab
      have hxy : x = y := by simpa [Cells.get] using h a
      subst hxy
      have : m = n := ih wm.2.2 wn.2.2 (fun k => by
        by_cases hk : a = k
        · subst hk
          rw [Cells.get_of_lt wm.2.2 (Nat.lt_succ_self a), Cells.get_of_lt wn.2.2 (Nat.lt_succ_self a)]
        · simpa [Cells.get, hk] using h k)
      rw [this]

/-! ## Byte memories -/

@[simp] theorem Memory.get_set_same (m : Memory) (k : Nat) (b : Byte) : (m.set k b).get k = b :=
  Cells.get_set_same _ _ _ _

theorem Memory.get_set_other (m : Memory) {k j : Nat} (h : j ≠ k) (b : Byte) : (m.set k b).get j = m.get j :=
  Cells.get_set_other _ _ h _

theorem Memory.get_set (m : Memory) (k j : Nat) (b : Byte) : (m.set k b).get j = if j = k then b else m.get j :=
  Cells.get_set _ _ _ _ _

theorem Memory.array_set {n k : Nat} {m : Memory} (hk : k < n) (b : Byte) (w : Memory.array n m = true) :
    Memory.array n (m.set k b) = true := by
  simp only [Memory.array, Bool.and_eq_true] at w ⊢
  exact ⟨Cells.wf_set w.1, Cells.below_set hk w.2⟩

theorem Memory.array_truncate {n : Nat} {m : Memory} (w : Memory.wf m = true) :
    Memory.array n (Cells.truncate n m) = true := by
  simp only [Memory.array, Bool.and_eq_true]
  exact ⟨Cells.wf_truncate w, Cells.below_truncate n m⟩

theorem Memory.get_of_mem {n k : Nat} {b : Byte} {m : Memory} (w : Memory.array n m = true) (h : (k, b) ∈ m) :
    m.get k = b :=
  (Cells.get_of_mem ((Bool.and_eq_true_iff.1 w).1) h).2

/-- Equal contents are equal data. -/
theorem Memory.ext_of_wf {m n : Memory} (wm : m.wf = true) (wn : n.wf = true) (h : ∀ k, m.get k = n.get k) : m = n :=
  Cells.ext_wfFrom wm wn h

/-! ## The framebuffer -/

@[simp] theorem Framebuffer.get_set_same (fb : Framebuffer) (y x : Nat) (p : Pixel) :
    Framebuffer.get (Framebuffer.set fb y x p) y x = p := by
  simp [Framebuffer.get, Framebuffer.set]

theorem Framebuffer.get_set_other (fb : Framebuffer) {y x y' x' : Nat} (h : (y', x') ≠ (y, x)) (p : Pixel) :
    Framebuffer.get (Framebuffer.set fb y x p) y' x' = Framebuffer.get fb y' x' := by
  simp only [Framebuffer.get, Framebuffer.set]
  by_cases hy : y' = y
  · subst hy
    have hx : x' ≠ x := fun e => h (by rw [e])
    rw [Cells.get_set_same, Cells.get_set_other _ _ hx]
  · rw [Cells.get_set_other _ _ hy]

theorem Framebuffer.wf_set {fb : Framebuffer} {y x : Nat} (hy : y < 240) (hx : x < 256) (p : Pixel)
    (w : Framebuffer.wf fb = true) : Framebuffer.wf (Framebuffer.set fb y x p) = true := by
  simp only [Framebuffer.wf, Bool.and_eq_true] at w ⊢
  obtain ⟨⟨w1, w2⟩, w3⟩ := w
  have row : Cells.wf 0#9 (Cells.get [] y fb) = true ∧ Cells.below 256 (Cells.get [] y fb) = true := by
    clear w1 w2
    induction fb with
    | nil => exact ⟨rfl, rfl⟩
    | cons c fb ih =>
      simp only [List.all_cons, Bool.and_eq_true] at w3
      simp only [Cells.get]
      split
      · exact w3.1
      · exact ih w3.2
  have rows : ∀ (r : Cells Pixel), Cells.wf 0#9 r = true ∧ Cells.below 256 r = true →
      ((Cells.set [] y r fb).all fun r => Cells.wf 0#9 r.2 && Cells.below 256 r.2) = true := by
    intro r hr
    clear w1 w2 row
    unfold Cells.set
    split
    · induction fb with
      | nil => rfl
      | cons c fb ih =>
        simp only [List.all_cons, Bool.and_eq_true] at w3
        simp only [Cells.drop]
        split
        · exact ih w3.2
        · simp only [List.all_cons, Bool.and_eq_true]; exact ⟨w3.1, ih w3.2⟩
    · induction fb with
      | nil => simpa [Cells.put] using hr
      | cons c fb ih =>
        have hc := w3
        simp only [List.all_cons, Bool.and_eq_true] at w3
        simp only [Cells.put]
        split
        · simp only [List.all_cons, Bool.and_eq_true]; exact ⟨hr, w3⟩
        · split
          · simp only [List.all_cons, Bool.and_eq_true]; exact ⟨hr, w3.2⟩
          · simp only [List.all_cons, Bool.and_eq_true]; exact ⟨w3.1, ih w3.2⟩
  exact ⟨⟨Cells.wf_set w1, Cells.below_set hy w2⟩, rows _ ⟨Cells.wf_set row.1, Cells.below_set hx row.2⟩⟩

end Sys2Proof.Machine
end

