-- ==== Sys2Proof/Laws/Decode.lean ====
section
/-! SUPPORT. The fields of a word and of an address, read back from the pieces they were built of. -/

namespace Sys2Proof

theorem append_toNat {n m : Nat} (x : BitVec n) (y : BitVec m) : (x ++ y).toNat = x.toNat * 2 ^ m + y.toNat := by
  rw [BitVec.toNat_append, ← Nat.shiftLeft_add_eq_or_of_lt y.isLt, Nat.shiftLeft_eq]

theorem mkWord_toNat (t o : BitVec 4) (a : Addr) (d : Byte) :
    (mkWord t o a d).toNat = ((t.toNat * 2 ^ 4 + o.toNat) * 2 ^ 16 + a.toNat) * 2 ^ 8 + d.toNat := by
  have h1 := append_toNat (t ++ o ++ a) d
  have h2 := append_toNat (t ++ o) a
  have h3 := append_toNat t o
  rw [mkWord, ← h3, ← h2, ← h1]

section fields
variable (t o : BitVec 4) (a : Addr) (d : Byte)

@[simp] theorem tField_mkWord : tField (mkWord t o a d) = t := by
  apply BitVec.eq_of_toNat_eq
  have := t.isLt; have := o.isLt; have := a.isLt; have := d.isLt
  simp only [tField, BitVec.extractLsb'_toNat, mkWord_toNat, Nat.shiftRight_eq_div_pow]; omega

@[simp] theorem oField_mkWord : oField (mkWord t o a d) = o := by
  apply BitVec.eq_of_toNat_eq
  have := t.isLt; have := o.isLt; have := a.isLt; have := d.isLt
  simp only [oField, BitVec.extractLsb'_toNat, mkWord_toNat, Nat.shiftRight_eq_div_pow]; omega

@[simp] theorem aField_mkWord : aField (mkWord t o a d) = a := by
  apply BitVec.eq_of_toNat_eq
  have := t.isLt; have := o.isLt; have := a.isLt; have := d.isLt
  simp only [aField, BitVec.extractLsb'_toNat, mkWord_toNat, Nat.shiftRight_eq_div_pow]; omega

@[simp] theorem dField_mkWord : dField (mkWord t o a d) = d := by
  apply BitVec.eq_of_toNat_eq
  have := t.isLt; have := o.isLt; have := a.isLt; have := d.isLt
  simp only [dField, BitVec.extractLsb'_toNat, mkWord_toNat, Nat.shiftRight_eq_div_pow]; omega

end fields

/-- A word is its four fields. -/
theorem mkWord_fields (w : Word) : mkWord (tField w) (oField w) (aField w) (dField w) = w := by
  apply BitVec.eq_of_toNat_eq
  have := w.isLt
  simp only [tField, oField, aField, dField, BitVec.extractLsb'_toNat, mkWord_toNat, Nat.shiftRight_eq_div_pow]; omega

@[simp] theorem decode_mkWord (slot : Option Variant) (t o : BitVec 4) (a : Addr) (d : Byte) :
    decode slot (mkWord t o a d) = decodeFields slot t o a d := by simp [decode]

@[simp] theorem whenZero_zero {n : Nat} (r : Except Rejection Instr) : whenZero (0#n) r = r := by simp [whenZero]

theorem whenZero_eq_ok {n : Nat} {u : BitVec n} {r : Except Rejection Instr} {i : Instr} :
    whenZero u r = .ok i ↔ u = 0#n ∧ r = .ok i := by
  unfold whenZero; split <;> simp_all

@[simp] theorem onSlot_some (v : Variant) (f : Variant → Instr) : onSlot (some v) f = .ok (f v) := rfl

/-! ## The legal pairs of target and operation (R55) -/

@[simp] theorem decodeFields_winR (slot : Option Variant) (a : Addr) (d : Byte) :
    decodeFields slot 0#4 0#4 a d = whenZero d (.ok (decodeWinR a)) := rfl
@[simp] theorem decodeFields_winW (slot : Option Variant) (a : Addr) (d : Byte) :
    decodeFields slot 0#4 1#4 a d = .ok (decodeWinW a d) := rfl
@[simp] theorem decodeFields_winP (slot : Option Variant) (a : Addr) (d : Byte) :
    decodeFields slot 0#4 2#4 a d = whenZero d (.ok (decodeWinP a)) := rfl
@[simp] theorem decodeFields_cartR (slot : Option Variant) (a : Addr) (d : Byte) :
    decodeFields slot 1#4 0#4 a d = whenZero d (onSlot slot (fun v => decodeCartR v a)) := rfl
@[simp] theorem decodeFields_cartW (slot : Option Variant) (a : Addr) (d : Byte) :
    decodeFields slot 1#4 1#4 a d = onSlot slot (fun v => decodeCartW v a d) := rfl
@[simp] theorem decodeFields_cartP (slot : Option Variant) (a : Addr) (d : Byte) :
    decodeFields slot 1#4 2#4 a d = whenZero d (onSlot slot (fun v => decodeCartP v a)) := rfl
@[simp] theorem decodeFields_busR (slot : Option Variant) (a : Addr) (d : Byte) :
    decodeFields slot 2#4 0#4 a d = whenZero d (whenZero (a.extractLsb' 14 2) (.ok (decodeBusR (a.extractLsb' 0 14)))) := rfl
@[simp] theorem decodeFields_busW (slot : Option Variant) (a : Addr) (d : Byte) :
    decodeFields slot 2#4 1#4 a d = whenZero (a.extractLsb' 14 2) (.ok (decodeBusW (a.extractLsb' 0 14) d)) := rfl
@[simp] theorem decodeFields_busP (slot : Option Variant) (a : Addr) (d : Byte) :
    decodeFields slot 2#4 2#4 a d = whenZero d (whenZero (a.extractLsb' 14 2) (.ok (decodeBusP (a.extractLsb' 0 14)))) := rfl
@[simp] theorem decodeFields_ppuTick (slot : Option Variant) (a : Addr) (d : Byte) :
    decodeFields slot 3#4 3#4 a d = whenZero d (whenZero a (.ok .ppuTick)) := rfl
@[simp] theorem decodeFields_ppuPowerCycle (slot : Option Variant) (a : Addr) (d : Byte) :
    decodeFields slot 3#4 4#4 a d = whenZero d (whenZero a (.ok .ppuPowerCycle)) := rfl
@[simp] theorem decodeFields_ppuReset (slot : Option Variant) (a : Addr) (d : Byte) :
    decodeFields slot 3#4 5#4 a d = whenZero d (whenZero a (.ok .ppuReset)) := rfl
@[simp] theorem decodeFields_ppuFramebuffer (slot : Option Variant) (a : Addr) (d : Byte) :
    decodeFields slot 3#4 7#4 a d = whenZero d (whenZero a (.ok .ppuFramebuffer)) := rfl
@[simp] theorem decodeFields_ppuFrameCount (slot : Option Variant) (a : Addr) (d : Byte) :
    decodeFields slot 3#4 8#4 a d = whenZero d (whenZero a (.ok .ppuFrameCount)) := rfl
@[simp] theorem decodeFields_mapTick (slot : Option Variant) (a : Addr) (d : Byte) :
    decodeFields slot 4#4 3#4 a d = whenZero d (whenZero a (.ok .mapTick)) := rfl
@[simp] theorem decodeFields_mapMirroring (slot : Option Variant) (a : Addr) (d : Byte) :
    decodeFields slot 4#4 6#4 a d = whenZero d (whenZero a (.ok .mapMirroring)) := rfl
@[simp] theorem decodeFields_mapFactory (slot : Option Variant) (a : Addr) (d : Byte) :
    decodeFields slot 4#4 9#4 a d = whenZero a (.ok (.mapFactory d)) := rfl

/-! ## The addresses a row's operand stands for -/

theorem winAddr_toNat (r : BitVec 3) (k : BitVec 10) : (winAddr r k).toNat = 0x2000 + k.toNat * 8 + r.toNat := by
  have h1 := append_toNat (1#3 ++ k) r
  have h2 := append_toNat 1#3 k
  rw [h2] at h1
  refine h1.trans ?_
  simp only [BitVec.toNat_ofNat]; omega

theorem chrAddr_toNat (o : BitVec 13) : (chrAddr o).toNat = o.toNat := by
  refine (append_toNat 0#3 o).trans ?_
  simp only [BitVec.toNat_ofNat]; omega

theorem chrLoAddr_toNat (o : BitVec 12) : (chrLoAddr o).toNat = o.toNat := by
  refine (append_toNat 0#4 o).trans ?_
  simp only [BitVec.toNat_ofNat]; omega

theorem chrHiAddr_toNat (o : BitVec 12) : (chrHiAddr o).toNat = 0x1000 + o.toNat := by
  refine (append_toNat 1#4 o).trans ?_
  simp only [BitVec.toNat_ofNat]; omega

theorem prgRamAddr_toNat (o : BitVec 13) : (prgRamAddr o).toNat = 0x6000 + o.toNat := by
  refine (append_toNat 3#3 o).trans ?_
  simp only [BitVec.toNat_ofNat]; omega

theorem prgAddr_toNat (o : BitVec 15) : (prgAddr o).toNat = 0x8000 + o.toNat := by
  refine (append_toNat 1#1 o).trans ?_
  simp only [BitVec.toNat_ofNat]; omega

theorem prgLoAddr_toNat (o : BitVec 14) : (prgLoAddr o).toNat = 0x8000 + o.toNat := by
  refine (append_toNat 2#2 o).trans ?_
  simp only [BitVec.toNat_ofNat]; omega

theorem prgHiAddr_toNat (o : BitVec 14) : (prgHiAddr o).toNat = 0xc000 + o.toNat := by
  refine (append_toNat 3#2 o).trans ?_
  simp only [BitVec.toNat_ofNat]; omega

theorem ptBusAddr_toNat (o : BitVec 13) : (ptBusAddr o).toNat = o.toNat := by
  refine (append_toNat 0#1 o).trans ?_
  simp only [BitVec.toNat_ofNat]; omega

theorem ntBusAddr_toNat (o : BitVec 13) : (ntBusAddr o).toNat = 0x2000 + o.toNat := by
  refine (append_toNat 1#1 o).trans ?_
  simp only [BitVec.toNat_ofNat]; omega

theorem palBusAddr_toNat (o : BitVec 8) : (palBusAddr o).toNat = 0x3f00 + o.toNat := by
  refine (append_toNat 0x3F#6 o).trans ?_
  simp only [BitVec.toNat_ofNat]; omega

theorem serialAddr_toNat (sel : BitVec 2) (o : BitVec 13) :
    (serialAddr sel o).toNat = 0x8000 + sel.toNat * 0x2000 + o.toNat := by
  have h1 := append_toNat (1#1 ++ sel) o
  have h2 := append_toNat 1#1 sel
  rw [h2] at h1
  refine h1.trans ?_
  simp only [BitVec.toNat_ofNat]; omega

theorem busWordAddr_toNat (a : BusAddr) : (busWordAddr a).toNat = a.toNat := by
  refine (append_toNat 0#2 a).trans ?_
  simp only [BitVec.toNat_ofNat]; omega

theorem extract_toNat {n : Nat} (a : BitVec n) (lo len : Nat) : (a.extractLsb' lo len).toNat = a.toNat / 2 ^ lo % 2 ^ len := by
  rw [BitVec.extractLsb'_toNat, Nat.shiftRight_eq_div_pow]

/-! ## Reading the pieces back -/

@[simp] theorem winAddr_bits_13_3 (r : BitVec 3) (k : BitVec 10) : (winAddr r k).extractLsb' 13 3 = 1#3 := by
  apply BitVec.eq_of_toNat_eq
  have := r.isLt; have := k.isLt
  rw [extract_toNat, winAddr_toNat]
  try simp only [BitVec.toNat_ofNat]
  omega

@[simp] theorem winAddr_bits_3_10 (r : BitVec 3) (k : BitVec 10) : (winAddr r k).extractLsb' 3 10 = k := by
  apply BitVec.eq_of_toNat_eq
  have := r.isLt; have := k.isLt
  rw [extract_toNat, winAddr_toNat]
  try simp only [BitVec.toNat_ofNat]
  omega

@[simp] theorem winAddr_bits_0_3 (r : BitVec 3) (k : BitVec 10) : (winAddr r k).extractLsb' 0 3 = r := by
  apply BitVec.eq_of_toNat_eq
  have := r.isLt; have := k.isLt
  rw [extract_toNat, winAddr_toNat]
  try simp only [BitVec.toNat_ofNat]
  omega

@[simp] theorem chrAddr_bits_13_3 (o : BitVec 13) : (chrAddr o).extractLsb' 13 3 = 0#3 := by
  apply BitVec.eq_of_toNat_eq
  have := o.isLt
  rw [extract_toNat, chrAddr_toNat]
  try simp only [BitVec.toNat_ofNat]
  omega

@[simp] theorem chrAddr_bits_0_13 (o : BitVec 13) : (chrAddr o).extractLsb' 0 13 = o := by
  apply BitVec.eq_of_toNat_eq
  have := o.isLt
  rw [extract_toNat, chrAddr_toNat]
  try simp only [BitVec.toNat_ofNat]
  omega

@[simp] theorem chrLoAddr_bits_13_3 (o : BitVec 12) : (chrLoAddr o).extractLsb' 13 3 = 0#3 := by
  apply BitVec.eq_of_toNat_eq
  have := o.isLt
  rw [extract_toNat, chrLoAddr_toNat]
  try simp only [BitVec.toNat_ofNat]
  omega

@[simp] theorem chrLoAddr_bits_12_1 (o : BitVec 12) : (chrLoAddr o).extractLsb' 12 1 = 0#1 := by
  apply BitVec.eq_of_toNat_eq
  have := o.isLt
  rw [extract_toNat, chrLoAddr_toNat]
  try simp only [BitVec.toNat_ofNat]
  omega

@[simp] theorem chrLoAddr_bits_0_12 (o : BitVec 12) : (chrLoAddr o).extractLsb' 0 12 = o := by
  apply BitVec.eq_of_toNat_eq
  have := o.isLt
  rw [extract_toNat, chrLoAddr_toNat]
  try simp only [BitVec.toNat_ofNat]
  omega

@[simp] theorem chrHiAddr_bits_13_3 (o : BitVec 12) : (chrHiAddr o).extractLsb' 13 3 = 0#3 := by
  apply BitVec.eq_of_toNat_eq
  have := o.isLt
  rw [extract_toNat, chrHiAddr_toNat]
  try simp only [BitVec.toNat_ofNat]
  omega

@[simp] theorem chrHiAddr_bits_12_1 (o : BitVec 12) : (chrHiAddr o).extractLsb' 12 1 = 1#1 := by
  apply BitVec.eq_of_toNat_eq
  have := o.isLt
  rw [extract_toNat, chrHiAddr_toNat]
  try simp only [BitVec.toNat_ofNat]
  omega

@[simp] theorem chrHiAddr_bits_0_12 (o : BitVec 12) : (chrHiAddr o).extractLsb' 0 12 = o := by
  apply BitVec.eq_of_toNat_eq
  have := o.isLt
  rw [extract_toNat, chrHiAddr_toNat]
  try simp only [BitVec.toNat_ofNat]
  omega

@[simp] theorem prgRamAddr_bits_13_3 (o : BitVec 13) : (prgRamAddr o).extractLsb' 13 3 = 3#3 := by
  apply BitVec.eq_of_toNat_eq
  have := o.isLt
  rw [extract_toNat, prgRamAddr_toNat]
  try simp only [BitVec.toNat_ofNat]
  omega

@[simp] theorem prgRamAddr_bits_15_1 (o : BitVec 13) : (prgRamAddr o).extractLsb' 15 1 = 0#1 := by
  apply BitVec.eq_of_toNat_eq
  have := o.isLt
  rw [extract_toNat, prgRamAddr_toNat]
  try simp only [BitVec.toNat_ofNat]
  omega

@[simp] theorem prgRamAddr_bits_0_13 (o : BitVec 13) : (prgRamAddr o).extractLsb' 0 13 = o := by
  apply BitVec.eq_of_toNat_eq
  have := o.isLt
  rw [extract_toNat, prgRamAddr_toNat]
  try simp only [BitVec.toNat_ofNat]
  omega

@[simp] theorem prgAddr_bits_15_1 (o : BitVec 15) : (prgAddr o).extractLsb' 15 1 = 1#1 := by
  apply BitVec.eq_of_toNat_eq
  have := o.isLt
  rw [extract_toNat, prgAddr_toNat]
  try simp only [BitVec.toNat_ofNat]
  omega

@[simp] theorem prgAddr_bits_0_15 (o : BitVec 15) : (prgAddr o).extractLsb' 0 15 = o := by
  apply BitVec.eq_of_toNat_eq
  have := o.isLt
  rw [extract_toNat, prgAddr_toNat]
  try simp only [BitVec.toNat_ofNat]
  omega

@[simp] theorem prgLoAddr_bits_15_1 (o : BitVec 14) : (prgLoAddr o).extractLsb' 15 1 = 1#1 := by
  apply BitVec.eq_of_toNat_eq
  have := o.isLt
  rw [extract_toNat, prgLoAddr_toNat]
  try simp only [BitVec.toNat_ofNat]
  omega

@[simp] theorem prgLoAddr_bits_14_1 (o : BitVec 14) : (prgLoAddr o).extractLsb' 14 1 = 0#1 := by
  apply BitVec.eq_of_toNat_eq
  have := o.isLt
  rw [extract_toNat, prgLoAddr_toNat]
  try simp only [BitVec.toNat_ofNat]
  omega

@[simp] theorem prgLoAddr_bits_0_14 (o : BitVec 14) : (prgLoAddr o).extractLsb' 0 14 = o := by
  apply BitVec.eq_of_toNat_eq
  have := o.isLt
  rw [extract_toNat, prgLoAddr_toNat]
  try simp only [BitVec.toNat_ofNat]
  omega

@[simp] theorem prgHiAddr_bits_15_1 (o : BitVec 14) : (prgHiAddr o).extractLsb' 15 1 = 1#1 := by
  apply BitVec.eq_of_toNat_eq
  have := o.isLt
  rw [extract_toNat, prgHiAddr_toNat]
  try simp only [BitVec.toNat_ofNat]
  omega

@[simp] theorem prgHiAddr_bits_14_1 (o : BitVec 14) : (prgHiAddr o).extractLsb' 14 1 = 1#1 := by
  apply BitVec.eq_of_toNat_eq
  have := o.isLt
  rw [extract_toNat, prgHiAddr_toNat]
  try simp only [BitVec.toNat_ofNat]
  omega

@[simp] theorem prgHiAddr_bits_0_14 (o : BitVec 14) : (prgHiAddr o).extractLsb' 0 14 = o := by
  apply BitVec.eq_of_toNat_eq
  have := o.isLt
  rw [extract_toNat, prgHiAddr_toNat]
  try simp only [BitVec.toNat_ofNat]
  omega

@[simp] theorem serialAddr_bits_15_1 (sel : BitVec 2) (o : BitVec 13) : (serialAddr sel o).extractLsb' 15 1 = 1#1 := by
  apply BitVec.eq_of_toNat_eq
  have := sel.isLt; have := o.isLt
  rw [extract_toNat, serialAddr_toNat]
  try simp only [BitVec.toNat_ofNat]
  omega

@[simp] theorem serialAddr_bits_13_2 (sel : BitVec 2) (o : BitVec 13) : (serialAddr sel o).extractLsb' 13 2 = sel := by
  apply BitVec.eq_of_toNat_eq
  have := sel.isLt; have := o.isLt
  rw [extract_toNat, serialAddr_toNat]
  try simp only [BitVec.toNat_ofNat]
  omega

@[simp] theorem serialAddr_bits_0_13 (sel : BitVec 2) (o : BitVec 13) : (serialAddr sel o).extractLsb' 0 13 = o := by
  apply BitVec.eq_of_toNat_eq
  have := sel.isLt; have := o.isLt
  rw [extract_toNat, serialAddr_toNat]
  try simp only [BitVec.toNat_ofNat]
  omega

@[simp] theorem busWordAddr_bits_14_2 (a : BusAddr) : (busWordAddr a).extractLsb' 14 2 = 0#2 := by
  apply BitVec.eq_of_toNat_eq
  have := a.isLt
  rw [extract_toNat, busWordAddr_toNat]
  try simp only [BitVec.toNat_ofNat]
  omega

@[simp] theorem busWordAddr_bits_0_14 (a : BusAddr) : (busWordAddr a).extractLsb' 0 14 = a := by
  apply BitVec.eq_of_toNat_eq
  have := a.isLt
  rw [extract_toNat, busWordAddr_toNat]
  try simp only [BitVec.toNat_ofNat]
  omega

@[simp] theorem ptBusAddr_bits_13_1 (o : BitVec 13) : (ptBusAddr o).extractLsb' 13 1 = 0#1 := by
  apply BitVec.eq_of_toNat_eq
  have := o.isLt
  rw [extract_toNat, ptBusAddr_toNat]
  try simp only [BitVec.toNat_ofNat]
  omega

@[simp] theorem ptBusAddr_bits_0_13 (o : BitVec 13) : (ptBusAddr o).extractLsb' 0 13 = o := by
  apply BitVec.eq_of_toNat_eq
  have := o.isLt
  rw [extract_toNat, ptBusAddr_toNat]
  try simp only [BitVec.toNat_ofNat]
  omega

@[simp] theorem ntBusAddr_bits_13_1 (o : BitVec 13) : (ntBusAddr o).extractLsb' 13 1 = 1#1 := by
  apply BitVec.eq_of_toNat_eq
  have := o.isLt
  rw [extract_toNat, ntBusAddr_toNat]
  try simp only [BitVec.toNat_ofNat]
  omega

@[simp] theorem ntBusAddr_bits_0_13 (o : BitVec 13) : (ntBusAddr o).extractLsb' 0 13 = o := by
  apply BitVec.eq_of_toNat_eq
  have := o.isLt
  rw [extract_toNat, ntBusAddr_toNat]
  try simp only [BitVec.toNat_ofNat]
  omega

@[simp] theorem palBusAddr_bits_13_1 (o : BitVec 8) : (palBusAddr o).extractLsb' 13 1 = 1#1 := by
  apply BitVec.eq_of_toNat_eq
  have := o.isLt
  rw [extract_toNat, palBusAddr_toNat]
  try simp only [BitVec.toNat_ofNat]
  omega

@[simp] theorem palBusAddr_bits_8_5 (o : BitVec 8) : (palBusAddr o).extractLsb' 8 5 = 0x1F#5 := by
  apply BitVec.eq_of_toNat_eq
  have := o.isLt
  rw [extract_toNat, palBusAddr_toNat]
  try simp only [BitVec.toNat_ofNat]
  omega

@[simp] theorem palBusAddr_bits_0_8 (o : BitVec 8) : (palBusAddr o).extractLsb' 0 8 = o := by
  apply BitVec.eq_of_toNat_eq
  have := o.isLt
  rw [extract_toNat, palBusAddr_toNat]
  try simp only [BitVec.toNat_ofNat]
  omega

/-- The program ranges are not the graphics range. -/
theorem not_chr_of_prg {a : Addr} (h : a.extractLsb' 15 1 = 1#1) : a.extractLsb' 13 3 ≠ 0#3 := by
  intro h0
  have h1 := congrArg BitVec.toNat h
  have h2 := congrArg BitVec.toNat h0
  rw [extract_toNat] at h1 h2
  simp only [BitVec.toNat_ofNat] at h1 h2
  omega

/-- The palette offset of a nametable-row operand is the one of its address. -/
@[simp] theorem ntBusAddr_bits_8_5 (o : BitVec 13) : (ntBusAddr o).extractLsb' 8 5 = o.extractLsb' 8 5 := by
  apply BitVec.eq_of_toNat_eq
  have := o.isLt
  rw [extract_toNat, extract_toNat, ntBusAddr_toNat]
  omega

end Sys2Proof
end

