-- ==== Sys2Proof/Laws/State.lean ====
section
/-! SUPPORT. One lemma per field and update of the state, each true by rfl, and the inversions of the outcomes, so that no
later proof unfolds a record update. -/

namespace Sys2Proof.Machine

section setPpu
variable (s : State) (p : Ppu)
@[simp] theorem State.setPpu_cfg : (s.setPpu p).cfg = s.cfg := rfl
@[simp] theorem State.setPpu_ppu : (s.setPpu p).ppu = p := rfl
@[simp] theorem State.setPpu_mapper : (s.setPpu p).mapper = s.mapper := rfl
@[simp] theorem State.setPpu_oam : (s.setPpu p).oam = s.oam := rfl
@[simp] theorem State.setPpu_soam : (s.setPpu p).soam = s.soam := rfl
@[simp] theorem State.setPpu_ntram : (s.setPpu p).ntram = s.ntram := rfl
@[simp] theorem State.setPpu_palette : (s.setPpu p).palette = s.palette := rfl
@[simp] theorem State.setPpu_cartridge : (s.setPpu p).cartridge = s.cartridge := rfl
@[simp] theorem State.setPpu_cpuMem : (s.setPpu p).cpuMem = s.cpuMem := rfl
@[simp] theorem State.setPpu_history : (s.setPpu p).history = s.history := rfl
@[simp] theorem State.setPpu_reply : (s.setPpu p).reply = s.reply := rfl
@[simp] theorem State.setPpu_inbox : (s.setPpu p).inbox = s.inbox := rfl
end setPpu

section setMapper
variable (s : State) (m : Option Mapper)
@[simp] theorem State.setMapper_cfg : (s.setMapper m).cfg = s.cfg := rfl
@[simp] theorem State.setMapper_ppu : (s.setMapper m).ppu = s.ppu := rfl
@[simp] theorem State.setMapper_mapper : (s.setMapper m).mapper = m := rfl
@[simp] theorem State.setMapper_oam : (s.setMapper m).oam = s.oam := rfl
@[simp] theorem State.setMapper_soam : (s.setMapper m).soam = s.soam := rfl
@[simp] theorem State.setMapper_ntram : (s.setMapper m).ntram = s.ntram := rfl
@[simp] theorem State.setMapper_palette : (s.setMapper m).palette = s.palette := rfl
@[simp] theorem State.setMapper_cartridge : (s.setMapper m).cartridge = s.cartridge := rfl
@[simp] theorem State.setMapper_cpuMem : (s.setMapper m).cpuMem = s.cpuMem := rfl
@[simp] theorem State.setMapper_history : (s.setMapper m).history = s.history := rfl
@[simp] theorem State.setMapper_reply : (s.setMapper m).reply = s.reply := rfl
@[simp] theorem State.setMapper_inbox : (s.setMapper m).inbox = s.inbox := rfl
end setMapper

section setOam
variable (s : State) (m : Memory)
@[simp] theorem State.setOam_cfg : (s.setOam m).cfg = s.cfg := rfl
@[simp] theorem State.setOam_ppu : (s.setOam m).ppu = s.ppu := rfl
@[simp] theorem State.setOam_mapper : (s.setOam m).mapper = s.mapper := rfl
@[simp] theorem State.setOam_oam : (s.setOam m).oam = m := rfl
@[simp] theorem State.setOam_soam : (s.setOam m).soam = s.soam := rfl
@[simp] theorem State.setOam_ntram : (s.setOam m).ntram = s.ntram := rfl
@[simp] theorem State.setOam_palette : (s.setOam m).palette = s.palette := rfl
@[simp] theorem State.setOam_cartridge : (s.setOam m).cartridge = s.cartridge := rfl
@[simp] theorem State.setOam_cpuMem : (s.setOam m).cpuMem = s.cpuMem := rfl
@[simp] theorem State.setOam_history : (s.setOam m).history = s.history := rfl
@[simp] theorem State.setOam_reply : (s.setOam m).reply = s.reply := rfl
@[simp] theorem State.setOam_inbox : (s.setOam m).inbox = s.inbox := rfl
end setOam

section setSoam
variable (s : State) (m : Memory)
@[simp] theorem State.setSoam_cfg : (s.setSoam m).cfg = s.cfg := rfl
@[simp] theorem State.setSoam_ppu : (s.setSoam m).ppu = s.ppu := rfl
@[simp] theorem State.setSoam_mapper : (s.setSoam m).mapper = s.mapper := rfl
@[simp] theorem State.setSoam_oam : (s.setSoam m).oam = s.oam := rfl
@[simp] theorem State.setSoam_soam : (s.setSoam m).soam = m := rfl
@[simp] theorem State.setSoam_ntram : (s.setSoam m).ntram = s.ntram := rfl
@[simp] theorem State.setSoam_palette : (s.setSoam m).palette = s.palette := rfl
@[simp] theorem State.setSoam_cartridge : (s.setSoam m).cartridge = s.cartridge := rfl
@[simp] theorem State.setSoam_cpuMem : (s.setSoam m).cpuMem = s.cpuMem := rfl
@[simp] theorem State.setSoam_history : (s.setSoam m).history = s.history := rfl
@[simp] theorem State.setSoam_reply : (s.setSoam m).reply = s.reply := rfl
@[simp] theorem State.setSoam_inbox : (s.setSoam m).inbox = s.inbox := rfl
end setSoam

section setNtram
variable (s : State) (m : Memory)
@[simp] theorem State.setNtram_cfg : (s.setNtram m).cfg = s.cfg := rfl
@[simp] theorem State.setNtram_ppu : (s.setNtram m).ppu = s.ppu := rfl
@[simp] theorem State.setNtram_mapper : (s.setNtram m).mapper = s.mapper := rfl
@[simp] theorem State.setNtram_oam : (s.setNtram m).oam = s.oam := rfl
@[simp] theorem State.setNtram_soam : (s.setNtram m).soam = s.soam := rfl
@[simp] theorem State.setNtram_ntram : (s.setNtram m).ntram = m := rfl
@[simp] theorem State.setNtram_palette : (s.setNtram m).palette = s.palette := rfl
@[simp] theorem State.setNtram_cartridge : (s.setNtram m).cartridge = s.cartridge := rfl
@[simp] theorem State.setNtram_cpuMem : (s.setNtram m).cpuMem = s.cpuMem := rfl
@[simp] theorem State.setNtram_history : (s.setNtram m).history = s.history := rfl
@[simp] theorem State.setNtram_reply : (s.setNtram m).reply = s.reply := rfl
@[simp] theorem State.setNtram_inbox : (s.setNtram m).inbox = s.inbox := rfl
end setNtram

section setPalette
variable (s : State) (m : Memory)
@[simp] theorem State.setPalette_cfg : (s.setPalette m).cfg = s.cfg := rfl
@[simp] theorem State.setPalette_ppu : (s.setPalette m).ppu = s.ppu := rfl
@[simp] theorem State.setPalette_mapper : (s.setPalette m).mapper = s.mapper := rfl
@[simp] theorem State.setPalette_oam : (s.setPalette m).oam = s.oam := rfl
@[simp] theorem State.setPalette_soam : (s.setPalette m).soam = s.soam := rfl
@[simp] theorem State.setPalette_ntram : (s.setPalette m).ntram = s.ntram := rfl
@[simp] theorem State.setPalette_palette : (s.setPalette m).palette = m := rfl
@[simp] theorem State.setPalette_cartridge : (s.setPalette m).cartridge = s.cartridge := rfl
@[simp] theorem State.setPalette_cpuMem : (s.setPalette m).cpuMem = s.cpuMem := rfl
@[simp] theorem State.setPalette_history : (s.setPalette m).history = s.history := rfl
@[simp] theorem State.setPalette_reply : (s.setPalette m).reply = s.reply := rfl
@[simp] theorem State.setPalette_inbox : (s.setPalette m).inbox = s.inbox := rfl
end setPalette

section setCartridge
variable (s : State) (md : Metadata)
@[simp] theorem State.setCartridge_cfg : (s.setCartridge md).cfg = s.cfg := rfl
@[simp] theorem State.setCartridge_ppu : (s.setCartridge md).ppu = s.ppu := rfl
@[simp] theorem State.setCartridge_mapper : (s.setCartridge md).mapper = s.mapper := rfl
@[simp] theorem State.setCartridge_oam : (s.setCartridge md).oam = s.oam := rfl
@[simp] theorem State.setCartridge_soam : (s.setCartridge md).soam = s.soam := rfl
@[simp] theorem State.setCartridge_ntram : (s.setCartridge md).ntram = s.ntram := rfl
@[simp] theorem State.setCartridge_palette : (s.setCartridge md).palette = s.palette := rfl
@[simp] theorem State.setCartridge_cartridge : (s.setCartridge md).cartridge = md := rfl
@[simp] theorem State.setCartridge_cpuMem : (s.setCartridge md).cpuMem = s.cpuMem := rfl
@[simp] theorem State.setCartridge_history : (s.setCartridge md).history = s.history := rfl
@[simp] theorem State.setCartridge_reply : (s.setCartridge md).reply = s.reply := rfl
@[simp] theorem State.setCartridge_inbox : (s.setCartridge md).inbox = s.inbox := rfl
end setCartridge

section setCpuMem
variable (s : State) (m : Memory)
@[simp] theorem State.setCpuMem_cfg : (s.setCpuMem m).cfg = s.cfg := rfl
@[simp] theorem State.setCpuMem_ppu : (s.setCpuMem m).ppu = s.ppu := rfl
@[simp] theorem State.setCpuMem_mapper : (s.setCpuMem m).mapper = s.mapper := rfl
@[simp] theorem State.setCpuMem_oam : (s.setCpuMem m).oam = s.oam := rfl
@[simp] theorem State.setCpuMem_soam : (s.setCpuMem m).soam = s.soam := rfl
@[simp] theorem State.setCpuMem_ntram : (s.setCpuMem m).ntram = s.ntram := rfl
@[simp] theorem State.setCpuMem_palette : (s.setCpuMem m).palette = s.palette := rfl
@[simp] theorem State.setCpuMem_cartridge : (s.setCpuMem m).cartridge = s.cartridge := rfl
@[simp] theorem State.setCpuMem_cpuMem : (s.setCpuMem m).cpuMem = m := rfl
@[simp] theorem State.setCpuMem_history : (s.setCpuMem m).history = s.history := rfl
@[simp] theorem State.setCpuMem_reply : (s.setCpuMem m).reply = s.reply := rfl
@[simp] theorem State.setCpuMem_inbox : (s.setCpuMem m).inbox = s.inbox := rfl
end setCpuMem

section setReply
variable (s : State) (r : Reply)
@[simp] theorem State.setReply_cfg : (s.setReply r).cfg = s.cfg := rfl
@[simp] theorem State.setReply_ppu : (s.setReply r).ppu = s.ppu := rfl
@[simp] theorem State.setReply_mapper : (s.setReply r).mapper = s.mapper := rfl
@[simp] theorem State.setReply_oam : (s.setReply r).oam = s.oam := rfl
@[simp] theorem State.setReply_soam : (s.setReply r).soam = s.soam := rfl
@[simp] theorem State.setReply_ntram : (s.setReply r).ntram = s.ntram := rfl
@[simp] theorem State.setReply_palette : (s.setReply r).palette = s.palette := rfl
@[simp] theorem State.setReply_cartridge : (s.setReply r).cartridge = s.cartridge := rfl
@[simp] theorem State.setReply_cpuMem : (s.setReply r).cpuMem = s.cpuMem := rfl
@[simp] theorem State.setReply_history : (s.setReply r).history = s.history := rfl
@[simp] theorem State.setReply_reply : (s.setReply r).reply = r := rfl
@[simp] theorem State.setReply_inbox : (s.setReply r).inbox = s.inbox := rfl
end setReply

section setInbox
variable (s : State) (q : List Transaction)
@[simp] theorem State.setInbox_cfg : (s.setInbox q).cfg = s.cfg := rfl
@[simp] theorem State.setInbox_ppu : (s.setInbox q).ppu = s.ppu := rfl
@[simp] theorem State.setInbox_mapper : (s.setInbox q).mapper = s.mapper := rfl
@[simp] theorem State.setInbox_oam : (s.setInbox q).oam = s.oam := rfl
@[simp] theorem State.setInbox_soam : (s.setInbox q).soam = s.soam := rfl
@[simp] theorem State.setInbox_ntram : (s.setInbox q).ntram = s.ntram := rfl
@[simp] theorem State.setInbox_palette : (s.setInbox q).palette = s.palette := rfl
@[simp] theorem State.setInbox_cartridge : (s.setInbox q).cartridge = s.cartridge := rfl
@[simp] theorem State.setInbox_cpuMem : (s.setInbox q).cpuMem = s.cpuMem := rfl
@[simp] theorem State.setInbox_history : (s.setInbox q).history = s.history := rfl
@[simp] theorem State.setInbox_reply : (s.setInbox q).reply = s.reply := rfl
@[simp] theorem State.setInbox_inbox : (s.setInbox q).inbox = q := rfl
end setInbox

section record
variable (s : State) (e : Event)
@[simp] theorem State.record_cfg : (s.record e).cfg = s.cfg := rfl
@[simp] theorem State.record_ppu : (s.record e).ppu = s.ppu := rfl
@[simp] theorem State.record_mapper : (s.record e).mapper = s.mapper := rfl
@[simp] theorem State.record_oam : (s.record e).oam = s.oam := rfl
@[simp] theorem State.record_soam : (s.record e).soam = s.soam := rfl
@[simp] theorem State.record_ntram : (s.record e).ntram = s.ntram := rfl
@[simp] theorem State.record_palette : (s.record e).palette = s.palette := rfl
@[simp] theorem State.record_cartridge : (s.record e).cartridge = s.cartridge := rfl
@[simp] theorem State.record_cpuMem : (s.record e).cpuMem = s.cpuMem := rfl
@[simp] theorem State.record_history : (s.record e).history = s.history ++ [e] := rfl
@[simp] theorem State.record_reply : (s.record e).reply = s.reply := rfl
@[simp] theorem State.record_inbox : (s.record e).inbox = s.inbox := rfl
end record

section latch
variable (s : State) (b : Byte)
@[simp] theorem State.latch_cfg : (s.latch b).cfg = s.cfg := rfl
@[simp] theorem State.latch_ppu : (s.latch b).ppu = { s.ppu with ioLatch := b } := rfl
@[simp] theorem State.latch_mapper : (s.latch b).mapper = s.mapper := rfl
@[simp] theorem State.latch_oam : (s.latch b).oam = s.oam := rfl
@[simp] theorem State.latch_soam : (s.latch b).soam = s.soam := rfl
@[simp] theorem State.latch_ntram : (s.latch b).ntram = s.ntram := rfl
@[simp] theorem State.latch_palette : (s.latch b).palette = s.palette := rfl
@[simp] theorem State.latch_cartridge : (s.latch b).cartridge = s.cartridge := rfl
@[simp] theorem State.latch_cpuMem : (s.latch b).cpuMem = s.cpuMem := rfl
@[simp] theorem State.latch_history : (s.latch b).history = s.history := rfl
@[simp] theorem State.latch_reply : (s.latch b).reply = s.reply := rfl
@[simp] theorem State.latch_inbox : (s.latch b).inbox = s.inbox := rfl
end latch

section issue
variable (s : State) (tx : Transaction) (rest : List Transaction)
@[simp] theorem State.issue_cfg : (s.issue tx rest).cfg = s.cfg := rfl
@[simp] theorem State.issue_ppu : (s.issue tx rest).ppu = s.ppu := rfl
@[simp] theorem State.issue_mapper : (s.issue tx rest).mapper = s.mapper := rfl
@[simp] theorem State.issue_oam : (s.issue tx rest).oam = s.oam := rfl
@[simp] theorem State.issue_soam : (s.issue tx rest).soam = s.soam := rfl
@[simp] theorem State.issue_ntram : (s.issue tx rest).ntram = s.ntram := rfl
@[simp] theorem State.issue_palette : (s.issue tx rest).palette = s.palette := rfl
@[simp] theorem State.issue_cartridge : (s.issue tx rest).cartridge = tx.cartridge.getD s.cartridge := rfl
@[simp] theorem State.issue_cpuMem : (s.issue tx rest).cpuMem = tx.cpuMem.getD s.cpuMem := rfl
@[simp] theorem State.issue_history : (s.issue tx rest).history = s.history := rfl
@[simp] theorem State.issue_reply : (s.issue tx rest).reply = s.reply := rfl
@[simp] theorem State.issue_inbox : (s.issue tx rest).inbox = rest := rfl
end issue

/-! ## Writing a field back, and writing it twice -/

@[simp] theorem State.setPpu_self (s : State) : s.setPpu s.ppu = s := rfl
@[simp] theorem State.setPpu_setPpu (s : State) (p q : Ppu) : (s.setPpu p).setPpu q = s.setPpu q := rfl
@[simp] theorem State.setReply_setReply (s : State) (a b : Reply) : (s.setReply a).setReply b = s.setReply b := rfl
@[simp] theorem State.setReply_slot (s : State) (r : Reply) : (s.setReply r).slot = s.slot := rfl
@[simp] theorem State.setPpu_slot (s : State) (p : Ppu) : (s.setPpu p).slot = s.slot := rfl
@[simp] theorem State.issue_slot (s : State) (tx : Transaction) (rest : List Transaction) :
    (s.issue tx rest).slot = s.slot := rfl

/-! ## Outcomes -/

@[simp] theorem done_eq_next {s t : State} : done s = .next t ↔ s.setReply .none = t := by simp [done]
@[simp] theorem answer_eq_next {s t : State} {b : Byte} : answer s b = .next t ↔ s.setReply (.byte b) = t := by
  simp [answer]
@[simp] theorem windowRead_eq_next {s t : State} {r : Byte} :
    windowRead s r = .next t ↔ (s.latch r).setReply (.byte r) = t := by simp [windowRead]

theorem orNoCartridge_eq_next {α : Type} {r : Option α} {f : α → Result} {t : State} :
    orNoCartridge r f = .next t ↔ ∃ x, r = some x ∧ f x = .next t := by
  cases r <;> simp [orNoCartridge]

theorem withMapper_eq_next {s t : State} {f : Mapper → Result} :
    withMapper s f = .next t ↔ ∃ m, s.mapper = some m ∧ f m = .next t := by
  cases h : s.mapper <;> simp [withMapper, h]

theorem withNrom_eq_next {s t : State} {f : Mapper → Result} :
    withNrom s f = .next t ↔ ∃ m, s.mapper = some m ∧ m.regs = .nrom ∧ f m = .next t := by
  cases h : s.mapper with
  | none => simp [withNrom, withMapper, h]
  | some m => cases hr : m.regs <;> simp [withNrom, withMapper, h, hr]

theorem withMmc1_eq_next {s t : State} {f : Mapper → Mmc1 → Result} :
    withMmc1 s f = .next t ↔ ∃ m r, s.mapper = some m ∧ m.regs = .mmc1 r ∧ f m r = .next t := by
  cases h : s.mapper with
  | none => simp [withMmc1, withMapper, h]
  | some m => cases hr : m.regs <;> simp [withMmc1, withMapper, h, hr]

theorem withUxrom_eq_next {s t : State} {f : Mapper → Byte → Result} :
    withUxrom s f = .next t ↔ ∃ m b, s.mapper = some m ∧ m.regs = .uxrom b ∧ f m b = .next t := by
  cases h : s.mapper with
  | none => simp [withUxrom, withMapper, h]
  | some m => cases hr : m.regs <;> simp [withUxrom, withMapper, h, hr]

theorem withCnrom_eq_next {s t : State} {f : Mapper → Byte → Result} :
    withCnrom s f = .next t ↔ ∃ m b, s.mapper = some m ∧ m.regs = .cnrom b ∧ f m b = .next t := by
  cases h : s.mapper with
  | none => simp [withCnrom, withMapper, h]
  | some m => cases hr : m.regs <;> simp [withCnrom, withMapper, h, hr]

/-! ## The step -/

/-- All a step can do: idle with no pending transaction, or decode the oldest one and execute it. -/
theorem step_eq_next {s t : State} :
    step s = .next t ↔
      (s.inbox = [] ∧ t = s) ∨
      (∃ tx rest i, s.inbox = tx :: rest ∧ decode s.slot tx.word = .ok i ∧ exec i (s.issue tx rest) = .next t) := by
  cases h : s.inbox with
  | nil => simp [step, h, eq_comm]
  | cons tx rest => cases hd : decode s.slot tx.word <;> simp [step, h, hd]

/-- The step on a pending transaction. -/
theorem step_of_inbox {s : State} {tx : Transaction} {rest : List Transaction} (h : s.inbox = tx :: rest) :
    step s = match decode s.slot tx.word with
      | .error r => .refused (Refusal.ofRejection r)
      | .ok i => exec i (s.issue tx rest) := by
  simp only [step, h] <;> rfl

end Sys2Proof.Machine
end

