-- ==== Sys2Proof/Laws/Ops.lean ====
section
/-! SUPPORT. What the shared operations over the mapper and the PPU bus can do: one lemma per operation, cited by later
proofs in place of unfolding it. -/

namespace Sys2Proof.Machine

theorem renderingEnabled_eq_true {mask : Byte} :
    renderingEnabled mask = true ↔ mask.getLsbD 3 = true ∨ mask.getLsbD 4 = true := by
  simp [renderingEnabled, maskShowBg, maskShowSpr]

theorem renderingEnabled_eq_false {mask : Byte} :
    renderingEnabled mask = false ↔ mask.getLsbD 3 = false ∧ mask.getLsbD 4 = false := by
  simp [renderingEnabled, maskShowBg, maskShowSpr]

/-! ## The PPU bus -/

/-- A bus read depends on the mapper, the parameters, nametable RAM and palette RAM only. -/
theorem busRead_congr {s t : State} (hm : t.mapper = s.mapper) (hc : t.cfg = s.cfg) (hn : t.ntram = s.ntram)
    (hp : t.palette = s.palette) (a : BusAddr) : busRead t a = busRead s a := by
  simp [busRead, paletteRead, hm, hc, hn, hp]

theorem busRead_pattern {s : State} {m : Mapper} (h : s.mapper = some m) {a : BusAddr} (ha : a.toNat ≤ 0x1FFF) :
    busRead s a = some (m.read s.cfg (a.setWidth 16)) := by
  simp [busRead, ha, h]

theorem busRead_nametable {s : State} {m : Mapper} (h : s.mapper = some m) {a : BusAddr} (lo : 0x2000 ≤ a.toNat)
    (hi : a.toNat ≤ 0x3EFF) : busRead s a = some (s.ntram.get (ntIndex a m.mirroring)) := by
  have : ¬ a.toNat ≤ 0x1FFF := by omega
  simp [busRead, this, hi, h]

theorem busRead_palette (s : State) {a : BusAddr} (lo : 0x3F00 ≤ a.toNat) :
    busRead s a = some (s.palette.get (palIndex a)) := by
  have h1 : ¬ a.toNat ≤ 0x1FFF := by omega
  have h2 : ¬ a.toNat ≤ 0x3EFF := by omega
  simp [busRead, h1, h2, paletteRead]

theorem reaches_eq_true {s : State} {a : BusAddr} :
    reaches s a = true ↔ s.mapper.isSome = true ∨ 0x3F00 ≤ a.toNat := by
  simp [reaches]

/-- A bus read completes exactly where it reaches (R156). -/
theorem busRead_isSome (s : State) (a : BusAddr) : (busRead s a).isSome = reaches s a := by
  rw [Bool.eq_iff_iff, reaches_eq_true]
  unfold busRead
  split
  · simp; omega
  · split
    · simp; omega
    · simp; omega

theorem busWrite_isSome (s : State) (a : BusAddr) (d : Byte) : (busWrite s a d).isSome = reaches s a := by
  rw [Bool.eq_iff_iff, reaches_eq_true]
  unfold busWrite
  split
  · simp; omega
  · split
    · simp; omega
    · simp; omega

/-- With a mapper every bus read completes. -/
theorem busRead_some {s : State} (h : s.mapper.isSome = true) (a : BusAddr) : ∃ b, busRead s a = some b := by
  rw [← Option.isSome_iff_exists, busRead_isSome, reaches_eq_true]
  exact .inl h

/-- Without a mapper no bus read below the palette completes. -/
theorem busRead_none {s : State} (h : s.mapper = none) {a : BusAddr} (ha : a.toNat < 0x3F00) : busRead s a = none := by
  rw [← Option.not_isSome_iff_eq_none, busRead_isSome, reaches_eq_true, h]
  simp; omega

/-- All a bus write can do: change the mapper, one byte of nametable RAM, or one byte of palette RAM (R41). -/
theorem busWrite_eq_some {s t : State} {a : BusAddr} {d : Byte} (h : busWrite s a d = some t) :
    (a.toNat ≤ 0x1FFF ∧ ∃ m, s.mapper = some m ∧ t = s.setMapper (some (m.write (a.setWidth 16) d))) ∨
    (0x2000 ≤ a.toNat ∧ a.toNat ≤ 0x3EFF ∧ ∃ m, s.mapper = some m ∧
      t = s.setNtram (s.ntram.set (ntIndex a m.mirroring) d)) ∨
    (0x3F00 ≤ a.toNat ∧ t = s.setPalette (s.palette.set (palIndex a) d)) := by
  unfold busWrite at h
  split at h
  · obtain ⟨m, hm, rfl⟩ := Option.map_eq_some_iff.1 h
    exact .inl ⟨by assumption, m, hm, rfl⟩
  · split at h
    · obtain ⟨m, hm, rfl⟩ := Option.map_eq_some_iff.1 h
      exact .inr (.inl ⟨by omega, by assumption, m, hm, rfl⟩)
    · exact .inr (.inr ⟨by omega, by simpa using h.symm⟩)

theorem palIndex_lt (a : BusAddr) : palIndex a < 32 := by
  simp only [palIndex]
  split <;> omega

/-- A nametable index is inside the RAM the topology asks for (R27, R42). -/
theorem ntIndex_lt (a : BusAddr) (τ : Topology) :
    ntIndex a τ < (if τ = .fourScreen then Config.ntramSizeFour else Config.ntramSize) := by
  cases τ <;> simp only [ntIndex, Config.ntramSize, Config.ntramSizeFour] <;> simp <;> omega

/-! ## The mapper -/

/-- What no write changes (R31, R65, R72). -/
structure Mapper.Same (m m' : Mapper) : Prop where
  prg : m'.prg = m.prg
  prgSize : m'.prgSize = m.prgSize
  chrSize : m'.chrSize = m.chrSize
  hint : m'.hint = m.hint
  variant : m'.variant = m.variant
  rom : m.chrSize ≠ 0 → m'.chr = m.chr

theorem Mapper.Same.refl (m : Mapper) : m.Same m := ⟨rfl, rfl, rfl, rfl, rfl, fun _ => rfl⟩

/-- All `ChrWrite` can do. -/
theorem Mapper.chrWrite_eq (m : Mapper) (off : Nat) (d : Byte) :
    m.chrWrite off d = { m with chr := if m.chrSize = 0 then m.chr.set off d else m.chr } := by
  unfold Mapper.chrWrite
  split <;> rfl

theorem Mapper.chrWrite_get (m : Mapper) (off j : Nat) (d : Byte) :
    (m.chrWrite off d).chr.get j = if m.chrSize = 0 ∧ j = off then d else m.chr.get j := by
  rw [Mapper.chrWrite_eq]
  by_cases h : m.chrSize = 0 <;> simp [h, Memory.get_set]

theorem Mapper.chrWrite_same (m : Mapper) (off : Nat) (d : Byte) : m.Same (m.chrWrite off d) := by
  rw [Mapper.chrWrite_eq]
  exact ⟨rfl, rfl, rfl, rfl, rfl, fun h => by simp [h]⟩

/-- New registers of the same variant. -/
theorem Mapper.setRegs_same {m : Mapper} {regs : MapperRegs}
    (h : ({ m with regs := regs } : Mapper).variant = m.variant) : m.Same { m with regs := regs } :=
  ⟨rfl, rfl, rfl, rfl, h, fun _ => rfl⟩

theorem Mapper.write_same (m : Mapper) (a : Addr) (d : Byte) : m.Same (m.write a d) := by
  unfold Mapper.write
  cases h : m.regs with
  | nrom =>
    simp only [Mapper.nromWrite]
    split
    · exact m.chrWrite_same _ _
    · exact .refl m
  | mmc1 r =>
    simp only [Mapper.mmc1Write]
    split
    · exact m.chrWrite_same _ _
    · split
      · exact setRegs_same (by simp [Mapper.variant, h])
      · split
        · exact setRegs_same (by simp [Mapper.variant, h])
        · exact .refl m
  | uxrom b =>
    simp only [Mapper.uxromWrite]
    split
    · exact m.chrWrite_same _ _
    · split
      · exact setRegs_same (by simp [Mapper.variant, h])
      · exact .refl m
  | cnrom b =>
    simp only [Mapper.cnromWrite]
    split
    · exact m.chrWrite_same _ _
    · split
      · exact setRegs_same (by simp [Mapper.variant, h])
      · exact .refl m

/-- The two readings of variant 3's $C000 window, as bank numbers; with one or two banks they are the same bank. -/
theorem Mapper.cnromHighSelect_mod (m : Mapper) (cfg : Params) (h : 0 < m.nprg16) :
    m.cnromHighSelect cfg % m.nprg16 =
      if cfg.cnromHighWindow = .bankOne ∨ m.nprg16 ≤ 2 then 1 % m.nprg16 else m.nprg16 - 1 := by
  unfold Mapper.cnromHighSelect
  cases cfg.cnromHighWindow with
  | bankOne => simp
  | lastBank =>
    simp only [reduceCtorEq, false_or]
    rw [Nat.mod_eq_of_lt (by omega)]
    split
    · have : m.nprg16 = 1 ∨ m.nprg16 = 2 := by omega
      rcases this with e | e <;> rw [e]
    · rfl

/-- The commit changes one register (R83). -/
theorem Mmc1.commit_frame (r : Mmc1) (sel : BitVec 2) (v : BitVec 5) :
    (r.commit sel v).shift = r.shift ∧ (r.commit sel v).count = r.count ∧ (r.commit sel v).prgram = r.prgram := by
  unfold Mmc1.commit
  split <;> simp

/-- The serial port keeps PRG-RAM and its bit count within 4 (R33, R82). -/
theorem Mmc1.serialWrite_frame (r : Mmc1) (sel : BitVec 2) (d : Byte) (h : r.count ≤ 4) :
    (r.serialWrite sel d).prgram = r.prgram ∧ (r.serialWrite sel d).count ≤ 4 := by
  unfold Mmc1.serialWrite
  split
  · simp
  · split
    · simp [Mmc1.commit_frame]
    · simp; omega

end Sys2Proof.Machine
end

