-- ==== Sys2Proof/Laws/PerInstr.lean ====
section
/-! SUPPORT. The two families of statements made per instruction: the round trip of encoding, and the opcode-table row. -/

namespace Sys2Proof.Laws

/-- Whatever the slot holds that lets the row be selected, the word of a well-formed operation decodes to it. -/
def RoundTrip.Statement (i : Instr) : Prop :=
  i.wf = true → ∀ slot : Option Variant, i.rowIn slot → decode slot (encode i) = .ok i

/-- The word of a well-formed operation selects its own row of the opcode table, and the row names the operation's
variant. -/
def TableRow.Statement (i : Instr) : Prop :=
  i.wf = true → (encode i &&& i.row.mask) = i.row.pattern ∧ i.row.variant = i.variant? ∧ ∃ n : Nat, opcodeTable[n]? = some i.row

/-! ## Masks, field by field -/

theorem mkWord_and (t o t' o' : BitVec 4) (a a' : Addr) (d d' : Byte) :
    mkWord t o a d &&& mkWord t' o' a' d' = mkWord (t &&& t') (o &&& o') (a &&& a') (d &&& d') := by
  have h1 := BitVec.and_append (x₁ := t ++ o ++ a) (y₁ := d) (x₂ := t' ++ o' ++ a') (y₂ := d')
  have h2 := BitVec.and_append (x₁ := t ++ o) (y₁ := a) (x₂ := t' ++ o') (y₂ := a')
  have h3 := BitVec.and_append (x₁ := t) (y₁ := o) (x₂ := t') (y₂ := o')
  rw [h2, h3] at h1
  exact h1

theorem winAddr_and (r : BitVec 3) (k : BitVec 10) : winAddr r k &&& 0xE007#16 = winAddr r 0#10 := by
  have h1 := BitVec.and_append (x₁ := 1#3 ++ k) (y₁ := r) (x₂ := 7#3 ++ 0#10) (y₂ := 7#3)
  have h2 := BitVec.and_append (x₁ := 1#3) (y₁ := k) (x₂ := 7#3) (y₂ := 0#10)
  have h3 : k &&& 0#10 = 0#10 := BitVec.and_zero
  have h4 : r &&& 7#3 = r := BitVec.and_allOnes
  rw [h2, h3, h4] at h1
  exact h1

theorem serialAddr_and (sel : BitVec 2) (o : BitVec 13) : serialAddr sel o &&& 0xE000#16 = serialAddr sel 0#13 := by
  have h1 := BitVec.and_append (x₁ := 1#1 ++ sel) (y₁ := o) (x₂ := 1#1 ++ 3#2) (y₂ := 0#13)
  have h2 := BitVec.and_append (x₁ := 1#1) (y₁ := sel) (x₂ := 1#1) (y₂ := 3#2)
  have h3 : o &&& 0#13 = 0#13 := BitVec.and_zero
  have h4 : sel &&& 3#2 = sel := BitVec.and_allOnes
  rw [h2, h3, h4] at h1
  exact h1

theorem chrAddr_and (o : BitVec 13) : chrAddr o &&& 0xE000#16 = 0x0#16 := by
  have h1 := BitVec.and_append (x₁ := 0#3) (y₁ := o) (x₂ := 7#3) (y₂ := 0#13)
  rw [BitVec.and_zero] at h1
  exact h1

theorem prgRamAddr_and (o : BitVec 13) : prgRamAddr o &&& 0xE000#16 = 0x6000#16 := by
  have h1 := BitVec.and_append (x₁ := 3#3) (y₁ := o) (x₂ := 7#3) (y₂ := 0#13)
  rw [BitVec.and_zero] at h1
  exact h1

theorem prgAddr_and (o : BitVec 15) : prgAddr o &&& 0x8000#16 = 0x8000#16 := by
  have h1 := BitVec.and_append (x₁ := 1#1) (y₁ := o) (x₂ := 1#1) (y₂ := 0#15)
  rw [BitVec.and_zero] at h1
  exact h1

theorem prgLoAddr_and (o : BitVec 14) : prgLoAddr o &&& 0xC000#16 = 0x8000#16 := by
  have h1 := BitVec.and_append (x₁ := 2#2) (y₁ := o) (x₂ := 3#2) (y₂ := 0#14)
  rw [BitVec.and_zero] at h1
  exact h1

theorem prgHiAddr_and (o : BitVec 14) : prgHiAddr o &&& 0xC000#16 = 0xC000#16 := by
  have h1 := BitVec.and_append (x₁ := 3#2) (y₁ := o) (x₂ := 3#2) (y₂ := 0#14)
  rw [BitVec.and_zero] at h1
  exact h1

theorem chrLoAddr_and (o : BitVec 12) : chrLoAddr o &&& 0xF000#16 = 0x0#16 := by
  have h1 := BitVec.and_append (x₁ := 0#4) (y₁ := o) (x₂ := 15#4) (y₂ := 0#12)
  rw [BitVec.and_zero] at h1
  exact h1

theorem chrHiAddr_and (o : BitVec 12) : chrHiAddr o &&& 0xF000#16 = 0x1000#16 := by
  have h1 := BitVec.and_append (x₁ := 1#4) (y₁ := o) (x₂ := 15#4) (y₂ := 0#12)
  rw [BitVec.and_zero] at h1
  exact h1

theorem ptBusAddr_and (o : BitVec 13) : busWordAddr (ptBusAddr o) &&& 0xE000#16 = 0x0#16 := by
  have h1 := BitVec.and_append (x₁ := 0#2) (y₁ := ptBusAddr o) (x₂ := 3#2) (y₂ := 1#1 ++ 0#13)
  have h2 := BitVec.and_append (x₁ := 0#1) (y₁ := o) (x₂ := 1#1) (y₂ := 0#13)
  rw [BitVec.and_zero] at h2
  rw [show ptBusAddr o = 0#1 ++ o from rfl, h2] at h1
  exact h1

theorem ntBusAddr_and (o : BitVec 13) : busWordAddr (ntBusAddr o) &&& 0xE000#16 = 0x2000#16 := by
  have h1 := BitVec.and_append (x₁ := 0#2) (y₁ := ntBusAddr o) (x₂ := 3#2) (y₂ := 1#1 ++ 0#13)
  have h2 := BitVec.and_append (x₁ := 1#1) (y₁ := o) (x₂ := 1#1) (y₂ := 0#13)
  rw [BitVec.and_zero] at h2
  rw [show ntBusAddr o = 1#1 ++ o from rfl, h2] at h1
  exact h1

theorem palBusAddr_and (o : BitVec 8) : busWordAddr (palBusAddr o) &&& 0xFF00#16 = 0x3F00#16 := by
  have h1 := BitVec.and_append (x₁ := 0#2) (y₁ := palBusAddr o) (x₂ := 3#2) (y₂ := 63#6 ++ 0#8)
  have h2 := BitVec.and_append (x₁ := 0x3F#6) (y₁ := o) (x₂ := 63#6) (y₂ := 0#8)
  rw [BitVec.and_zero] at h2
  rw [show palBusAddr o = 0x3F#6 ++ o from rfl, h2] at h1
  exact h1

/-- The row test from its four fields. -/
theorem row_of_fields {w : Word} {t o : BitVec 4} {a am ap : Addr} {d dm dp : Byte} (hw : w = mkWord t o a d)
    (ha : a &&& am = ap) (hd : d &&& dm = dp) : w &&& mkWord 0xF#4 0xF#4 am dm = mkWord t o ap dp := by
  rw [hw, mkWord_and, ha, hd, show (0xF#4 : BitVec 4) = BitVec.allOnes 4 from rfl, BitVec.and_allOnes,
    BitVec.and_allOnes]

/-! ## The round trip -/

theorem RoundTrip.ppuctrlR (k : BitVec 10) : RoundTrip.Statement (.ppuctrlR k) := by
  intro _ slot _
  simp [encode, winWord, decodeWinR]

theorem RoundTrip.ppuctrlP (k : BitVec 10) : RoundTrip.Statement (.ppuctrlP k) := by
  intro _ slot _
  simp [encode, winWord, decodeWinP]

theorem RoundTrip.ppuctrlW (k : BitVec 10) (d : Byte) : RoundTrip.Statement (.ppuctrlW k d) := by
  intro _ slot _
  simp [encode, winWord, decodeWinW]

theorem RoundTrip.ppumaskR (k : BitVec 10) : RoundTrip.Statement (.ppumaskR k) := by
  intro _ slot _
  simp [encode, winWord, decodeWinR]

theorem RoundTrip.ppumaskP (k : BitVec 10) : RoundTrip.Statement (.ppumaskP k) := by
  intro _ slot _
  simp [encode, winWord, decodeWinP]

theorem RoundTrip.ppumaskW (k : BitVec 10) (d : Byte) : RoundTrip.Statement (.ppumaskW k d) := by
  intro _ slot _
  simp [encode, winWord, decodeWinW]

theorem RoundTrip.ppustatusR (k : BitVec 10) : RoundTrip.Statement (.ppustatusR k) := by
  intro _ slot _
  simp [encode, winWord, decodeWinR]

theorem RoundTrip.ppustatusP (k : BitVec 10) : RoundTrip.Statement (.ppustatusP k) := by
  intro _ slot _
  simp [encode, winWord, decodeWinP]

theorem RoundTrip.ppustatusW (k : BitVec 10) (d : Byte) : RoundTrip.Statement (.ppustatusW k d) := by
  intro _ slot _
  simp [encode, winWord, decodeWinW]

theorem RoundTrip.oamaddrR (k : BitVec 10) : RoundTrip.Statement (.oamaddrR k) := by
  intro _ slot _
  simp [encode, winWord, decodeWinR]

theorem RoundTrip.oamaddrP (k : BitVec 10) : RoundTrip.Statement (.oamaddrP k) := by
  intro _ slot _
  simp [encode, winWord, decodeWinP]

theorem RoundTrip.oamaddrW (k : BitVec 10) (d : Byte) : RoundTrip.Statement (.oamaddrW k d) := by
  intro _ slot _
  simp [encode, winWord, decodeWinW]

theorem RoundTrip.oamdataR (k : BitVec 10) : RoundTrip.Statement (.oamdataR k) := by
  intro _ slot _
  simp [encode, winWord, decodeWinR]

theorem RoundTrip.oamdataP (k : BitVec 10) : RoundTrip.Statement (.oamdataP k) := by
  intro _ slot _
  simp [encode, winWord, decodeWinP]

theorem RoundTrip.oamdataW (k : BitVec 10) (d : Byte) : RoundTrip.Statement (.oamdataW k d) := by
  intro _ slot _
  simp [encode, winWord, decodeWinW]

theorem RoundTrip.ppuscrollR (k : BitVec 10) : RoundTrip.Statement (.ppuscrollR k) := by
  intro _ slot _
  simp [encode, winWord, decodeWinR]

theorem RoundTrip.ppuscrollP (k : BitVec 10) : RoundTrip.Statement (.ppuscrollP k) := by
  intro _ slot _
  simp [encode, winWord, decodeWinP]

theorem RoundTrip.ppuscrollW (k : BitVec 10) (d : Byte) : RoundTrip.Statement (.ppuscrollW k d) := by
  intro _ slot _
  simp [encode, winWord, decodeWinW]

theorem RoundTrip.ppuaddrR (k : BitVec 10) : RoundTrip.Statement (.ppuaddrR k) := by
  intro _ slot _
  simp [encode, winWord, decodeWinR]

theorem RoundTrip.ppuaddrP (k : BitVec 10) : RoundTrip.Statement (.ppuaddrP k) := by
  intro _ slot _
  simp [encode, winWord, decodeWinP]

theorem RoundTrip.ppuaddrW (k : BitVec 10) (d : Byte) : RoundTrip.Statement (.ppuaddrW k d) := by
  intro _ slot _
  simp [encode, winWord, decodeWinW]

theorem RoundTrip.ppudataR (k : BitVec 10) : RoundTrip.Statement (.ppudataR k) := by
  intro _ slot _
  simp [encode, winWord, decodeWinR]

theorem RoundTrip.ppudataP (k : BitVec 10) : RoundTrip.Statement (.ppudataP k) := by
  intro _ slot _
  simp [encode, winWord, decodeWinP]

theorem RoundTrip.ppudataW (k : BitVec 10) (d : Byte) : RoundTrip.Statement (.ppudataW k d) := by
  intro _ slot _
  simp [encode, winWord, decodeWinW]

theorem RoundTrip.oamdmaR : RoundTrip.Statement .oamdmaR := by
  intro _ slot _
  simp [encode, decodeWinR, dmaAddr]

theorem RoundTrip.oamdmaP : RoundTrip.Statement .oamdmaP := by
  intro _ slot _
  simp [encode, decodeWinP, dmaAddr]

theorem RoundTrip.oamdmaW (d : Byte) : RoundTrip.Statement (.oamdmaW d) := by
  intro _ slot _
  simp [encode, decodeWinW, dmaAddr]

theorem RoundTrip.winOutsideR (a : Addr) : RoundTrip.Statement (.winOutsideR a) := by
  intro h slot _
  simp [Instr.wf, inWindow] at h
  simp [encode, decodeWinR, dmaAddr, h]

theorem RoundTrip.winOutsideP (a : Addr) : RoundTrip.Statement (.winOutsideP a) := by
  intro h slot _
  simp [Instr.wf, inWindow] at h
  simp [encode, decodeWinP, dmaAddr, h]

theorem RoundTrip.winOutsideW (a : Addr) (d : Byte) : RoundTrip.Statement (.winOutsideW a d) := by
  intro h slot _
  simp [Instr.wf, inWindow] at h
  simp [encode, decodeWinW, dmaAddr, h]

theorem RoundTrip.nromChrR (o : BitVec 13) : RoundTrip.Statement (.nromChrR o) := by
  intro _ slot hv
  obtain rfl : some Variant.nrom = slot := by simpa [Instr.rowIn, Instr.variant?] using hv
  simp [encode, cartWord, decodeCartR]

theorem RoundTrip.nromChrW (o : BitVec 13) (d : Byte) : RoundTrip.Statement (.nromChrW o d) := by
  intro _ slot hv
  obtain rfl : some Variant.nrom = slot := by simpa [Instr.rowIn, Instr.variant?] using hv
  simp [encode, cartWord, decodeCartW]

theorem RoundTrip.nromPrgR (o : BitVec 15) : RoundTrip.Statement (.nromPrgR o) := by
  intro _ slot hv
  obtain rfl : some Variant.nrom = slot := by simpa [Instr.rowIn, Instr.variant?] using hv
  simp [encode, cartWord, decodeCartR, not_chr_of_prg (prgAddr_bits_15_1 o)]

theorem RoundTrip.nromPrgW (o : BitVec 15) (d : Byte) : RoundTrip.Statement (.nromPrgW o d) := by
  intro _ slot hv
  obtain rfl : some Variant.nrom = slot := by simpa [Instr.rowIn, Instr.variant?] using hv
  simp [encode, cartWord, decodeCartW, not_chr_of_prg (prgAddr_bits_15_1 o)]

theorem RoundTrip.nromPeek (a : Addr) : RoundTrip.Statement (.nromPeek a) := by
  intro _ slot hv
  obtain rfl : some Variant.nrom = slot := by simpa [Instr.rowIn, Instr.variant?] using hv
  simp [encode, cartWord, decodeCartP]

theorem RoundTrip.nromUnmappedR (a : Addr) : RoundTrip.Statement (.nromUnmappedR a) := by
  intro h slot hv
  simp [Instr.wf, Variant.maps] at h
  obtain rfl : some Variant.nrom = slot := by simpa [Instr.rowIn, Instr.variant?] using hv
  simp [encode, cartWord, decodeCartR, h]

theorem RoundTrip.nromUnmappedW (a : Addr) (d : Byte) : RoundTrip.Statement (.nromUnmappedW a d) := by
  intro h slot hv
  simp [Instr.wf, Variant.maps] at h
  obtain rfl : some Variant.nrom = slot := by simpa [Instr.rowIn, Instr.variant?] using hv
  simp [encode, cartWord, decodeCartW, h]

theorem RoundTrip.mmc1PrgramR (o : BitVec 13) : RoundTrip.Statement (.mmc1PrgramR o) := by
  intro _ slot hv
  obtain rfl : some Variant.mmc1 = slot := by simpa [Instr.rowIn, Instr.variant?] using hv
  simp [encode, cartWord, decodeCartR]

theorem RoundTrip.mmc1PrgramW (o : BitVec 13) (d : Byte) : RoundTrip.Statement (.mmc1PrgramW o d) := by
  intro _ slot hv
  obtain rfl : some Variant.mmc1 = slot := by simpa [Instr.rowIn, Instr.variant?] using hv
  simp [encode, cartWord, decodeCartW]

theorem RoundTrip.mmc1WCtrl (o : BitVec 13) (d : Byte) : RoundTrip.Statement (.mmc1WCtrl o d) := by
  intro _ slot hv
  obtain rfl : some Variant.mmc1 = slot := by simpa [Instr.rowIn, Instr.variant?] using hv
  simp [encode, cartWord, decodeCartW, not_chr_of_prg (serialAddr_bits_15_1 0#2 o)]

theorem RoundTrip.mmc1WChr0 (o : BitVec 13) (d : Byte) : RoundTrip.Statement (.mmc1WChr0 o d) := by
  intro _ slot hv
  obtain rfl : some Variant.mmc1 = slot := by simpa [Instr.rowIn, Instr.variant?] using hv
  simp [encode, cartWord, decodeCartW, not_chr_of_prg (serialAddr_bits_15_1 1#2 o)]

theorem RoundTrip.mmc1WChr1 (o : BitVec 13) (d : Byte) : RoundTrip.Statement (.mmc1WChr1 o d) := by
  intro _ slot hv
  obtain rfl : some Variant.mmc1 = slot := by simpa [Instr.rowIn, Instr.variant?] using hv
  simp [encode, cartWord, decodeCartW, not_chr_of_prg (serialAddr_bits_15_1 2#2 o)]

theorem RoundTrip.mmc1WPrg (o : BitVec 13) (d : Byte) : RoundTrip.Statement (.mmc1WPrg o d) := by
  intro _ slot hv
  obtain rfl : some Variant.mmc1 = slot := by simpa [Instr.rowIn, Instr.variant?] using hv
  simp [encode, cartWord, decodeCartW, not_chr_of_prg (serialAddr_bits_15_1 3#2 o)]

theorem RoundTrip.mmc1PrgLoR (o : BitVec 14) : RoundTrip.Statement (.mmc1PrgLoR o) := by
  intro _ slot hv
  obtain rfl : some Variant.mmc1 = slot := by simpa [Instr.rowIn, Instr.variant?] using hv
  simp [encode, cartWord, decodeCartR, not_chr_of_prg (prgLoAddr_bits_15_1 o)]

theorem RoundTrip.mmc1PrgHiR (o : BitVec 14) : RoundTrip.Statement (.mmc1PrgHiR o) := by
  intro _ slot hv
  obtain rfl : some Variant.mmc1 = slot := by simpa [Instr.rowIn, Instr.variant?] using hv
  simp [encode, cartWord, decodeCartR, not_chr_of_prg (prgHiAddr_bits_15_1 o)]

theorem RoundTrip.mmc1ChrLoR (o : BitVec 12) : RoundTrip.Statement (.mmc1ChrLoR o) := by
  intro _ slot hv
  obtain rfl : some Variant.mmc1 = slot := by simpa [Instr.rowIn, Instr.variant?] using hv
  simp [encode, cartWord, decodeCartR]

theorem RoundTrip.mmc1ChrHiR (o : BitVec 12) : RoundTrip.Statement (.mmc1ChrHiR o) := by
  intro _ slot hv
  obtain rfl : some Variant.mmc1 = slot := by simpa [Instr.rowIn, Instr.variant?] using hv
  simp [encode, cartWord, decodeCartR]

theorem RoundTrip.mmc1ChrW (o : BitVec 13) (d : Byte) : RoundTrip.Statement (.mmc1ChrW o d) := by
  intro _ slot hv
  obtain rfl : some Variant.mmc1 = slot := by simpa [Instr.rowIn, Instr.variant?] using hv
  simp [encode, cartWord, decodeCartW]

theorem RoundTrip.mmc1Peek (a : Addr) : RoundTrip.Statement (.mmc1Peek a) := by
  intro _ slot hv
  obtain rfl : some Variant.mmc1 = slot := by simpa [Instr.rowIn, Instr.variant?] using hv
  simp [encode, cartWord, decodeCartP]

theorem RoundTrip.mmc1UnmappedR (a : Addr) : RoundTrip.Statement (.mmc1UnmappedR a) := by
  intro h slot hv
  simp [Instr.wf, Variant.maps] at h
  obtain rfl : some Variant.mmc1 = slot := by simpa [Instr.rowIn, Instr.variant?] using hv
  simp [encode, cartWord, decodeCartR, h]

theorem RoundTrip.mmc1UnmappedW (a : Addr) (d : Byte) : RoundTrip.Statement (.mmc1UnmappedW a d) := by
  intro h slot hv
  simp [Instr.wf, Variant.maps] at h
  obtain rfl : some Variant.mmc1 = slot := by simpa [Instr.rowIn, Instr.variant?] using hv
  simp [encode, cartWord, decodeCartW, h]

theorem RoundTrip.uxromWBank (o : BitVec 15) (d : Byte) : RoundTrip.Statement (.uxromWBank o d) := by
  intro _ slot hv
  obtain rfl : some Variant.uxrom = slot := by simpa [Instr.rowIn, Instr.variant?] using hv
  simp [encode, cartWord, decodeCartW, not_chr_of_prg (prgAddr_bits_15_1 o)]

theorem RoundTrip.uxromPrgLoR (o : BitVec 14) : RoundTrip.Statement (.uxromPrgLoR o) := by
  intro _ slot hv
  obtain rfl : some Variant.uxrom = slot := by simpa [Instr.rowIn, Instr.variant?] using hv
  simp [encode, cartWord, decodeCartR, not_chr_of_prg (prgLoAddr_bits_15_1 o)]

theorem RoundTrip.uxromPrgHiR (o : BitVec 14) : RoundTrip.Statement (.uxromPrgHiR o) := by
  intro _ slot hv
  obtain rfl : some Variant.uxrom = slot := by simpa [Instr.rowIn, Instr.variant?] using hv
  simp [encode, cartWord, decodeCartR, not_chr_of_prg (prgHiAddr_bits_15_1 o)]

theorem RoundTrip.uxromChrR (o : BitVec 13) : RoundTrip.Statement (.uxromChrR o) := by
  intro _ slot hv
  obtain rfl : some Variant.uxrom = slot := by simpa [Instr.rowIn, Instr.variant?] using hv
  simp [encode, cartWord, decodeCartR]

theorem RoundTrip.uxromChrW (o : BitVec 13) (d : Byte) : RoundTrip.Statement (.uxromChrW o d) := by
  intro _ slot hv
  obtain rfl : some Variant.uxrom = slot := by simpa [Instr.rowIn, Instr.variant?] using hv
  simp [encode, cartWord, decodeCartW]

theorem RoundTrip.uxromPeek (a : Addr) : RoundTrip.Statement (.uxromPeek a) := by
  intro _ slot hv
  obtain rfl : some Variant.uxrom = slot := by simpa [Instr.rowIn, Instr.variant?] using hv
  simp [encode, cartWord, decodeCartP]

theorem RoundTrip.uxromUnmappedR (a : Addr) : RoundTrip.Statement (.uxromUnmappedR a) := by
  intro h slot hv
  simp [Instr.wf, Variant.maps] at h
  obtain rfl : some Variant.uxrom = slot := by simpa [Instr.rowIn, Instr.variant?] using hv
  simp [encode, cartWord, decodeCartR, h]

theorem RoundTrip.uxromUnmappedW (a : Addr) (d : Byte) : RoundTrip.Statement (.uxromUnmappedW a d) := by
  intro h slot hv
  simp [Instr.wf, Variant.maps] at h
  obtain rfl : some Variant.uxrom = slot := by simpa [Instr.rowIn, Instr.variant?] using hv
  simp [encode, cartWord, decodeCartW, h]

theorem RoundTrip.cnromWBank (o : BitVec 15) (d : Byte) : RoundTrip.Statement (.cnromWBank o d) := by
  intro _ slot hv
  obtain rfl : some Variant.cnrom = slot := by simpa [Instr.rowIn, Instr.variant?] using hv
  simp [encode, cartWord, decodeCartW, not_chr_of_prg (prgAddr_bits_15_1 o)]

theorem RoundTrip.cnromChrR (o : BitVec 13) : RoundTrip.Statement (.cnromChrR o) := by
  intro _ slot hv
  obtain rfl : some Variant.cnrom = slot := by simpa [Instr.rowIn, Instr.variant?] using hv
  simp [encode, cartWord, decodeCartR]

theorem RoundTrip.cnromChrW (o : BitVec 13) (d : Byte) : RoundTrip.Statement (.cnromChrW o d) := by
  intro _ slot hv
  obtain rfl : some Variant.cnrom = slot := by simpa [Instr.rowIn, Instr.variant?] using hv
  simp [encode, cartWord, decodeCartW]

theorem RoundTrip.cnromPrgR (o : BitVec 15) : RoundTrip.Statement (.cnromPrgR o) := by
  intro _ slot hv
  obtain rfl : some Variant.cnrom = slot := by simpa [Instr.rowIn, Instr.variant?] using hv
  simp [encode, cartWord, decodeCartR, not_chr_of_prg (prgAddr_bits_15_1 o)]

theorem RoundTrip.cnromPeek (a : Addr) : RoundTrip.Statement (.cnromPeek a) := by
  intro _ slot hv
  obtain rfl : some Variant.cnrom = slot := by simpa [Instr.rowIn, Instr.variant?] using hv
  simp [encode, cartWord, decodeCartP]

theorem RoundTrip.cnromUnmappedR (a : Addr) : RoundTrip.Statement (.cnromUnmappedR a) := by
  intro h slot hv
  simp [Instr.wf, Variant.maps] at h
  obtain rfl : some Variant.cnrom = slot := by simpa [Instr.rowIn, Instr.variant?] using hv
  simp [encode, cartWord, decodeCartR, h]

theorem RoundTrip.cnromUnmappedW (a : Addr) (d : Byte) : RoundTrip.Statement (.cnromUnmappedW a d) := by
  intro h slot hv
  simp [Instr.wf, Variant.maps] at h
  obtain rfl : some Variant.cnrom = slot := by simpa [Instr.rowIn, Instr.variant?] using hv
  simp [encode, cartWord, decodeCartW, h]

theorem RoundTrip.pbusPtR (o : BitVec 13) : RoundTrip.Statement (.pbusPtR o) := by
  intro _ slot _
  simp [encode, busWord, decodeBusR]

theorem RoundTrip.pbusPalR (o : BitVec 8) : RoundTrip.Statement (.pbusPalR o) := by
  intro _ slot _
  simp [encode, busWord, decodeBusR]

theorem RoundTrip.pbusNtR (o : BitVec 13) : RoundTrip.Statement (.pbusNtR o) := by
  intro h slot _
  simp [Instr.wf] at h
  simp [encode, busWord, decodeBusR, h]

theorem RoundTrip.pbusPtW (o : BitVec 13) (d : Byte) : RoundTrip.Statement (.pbusPtW o d) := by
  intro _ slot _
  simp [encode, busWord, decodeBusW]

theorem RoundTrip.pbusPalW (o : BitVec 8) (d : Byte) : RoundTrip.Statement (.pbusPalW o d) := by
  intro _ slot _
  simp [encode, busWord, decodeBusW]

theorem RoundTrip.pbusNtW (o : BitVec 13) (d : Byte) : RoundTrip.Statement (.pbusNtW o d) := by
  intro h slot _
  simp [Instr.wf] at h
  simp [encode, busWord, decodeBusW, h]

theorem RoundTrip.pbusPtP (o : BitVec 13) : RoundTrip.Statement (.pbusPtP o) := by
  intro _ slot _
  simp [encode, busWord, decodeBusP]

theorem RoundTrip.pbusPalP (o : BitVec 8) : RoundTrip.Statement (.pbusPalP o) := by
  intro _ slot _
  simp [encode, busWord, decodeBusP]

theorem RoundTrip.pbusNtP (o : BitVec 13) : RoundTrip.Statement (.pbusNtP o) := by
  intro h slot _
  simp [Instr.wf] at h
  simp [encode, busWord, decodeBusP, h]

theorem RoundTrip.ppuTick : RoundTrip.Statement .ppuTick := by
  intro _ slot _
  simp [encode]

theorem RoundTrip.ppuPowerCycle : RoundTrip.Statement .ppuPowerCycle := by
  intro _ slot _
  simp [encode]

theorem RoundTrip.ppuReset : RoundTrip.Statement .ppuReset := by
  intro _ slot _
  simp [encode]

theorem RoundTrip.ppuFramebuffer : RoundTrip.Statement .ppuFramebuffer := by
  intro _ slot _
  simp [encode]

theorem RoundTrip.ppuFrameCount : RoundTrip.Statement .ppuFrameCount := by
  intro _ slot _
  simp [encode]

theorem RoundTrip.mapFactory (id : Byte) : RoundTrip.Statement (.mapFactory id) := by
  intro _ slot _
  simp [encode]

theorem RoundTrip.mapTick : RoundTrip.Statement .mapTick := by
  intro _ slot _
  simp [encode]

theorem RoundTrip.mapMirroring : RoundTrip.Statement .mapMirroring := by
  intro _ slot _
  simp [encode]

/-! ## The opcode-table row -/

theorem TableRow.ppuctrlR (k : BitVec 10) : TableRow.Statement (.ppuctrlR k) := by
  intro _
  exact ⟨row_of_fields (t := 0#4) (o := 0#4) (am := 0xE007#16) (ap := 0x2000#16) (dm := 0xFF#8) (dp := 0#8) rfl
    (winAddr_and 0#3 k) rfl, rfl, ⟨0, rfl⟩⟩

theorem TableRow.ppuctrlP (k : BitVec 10) : TableRow.Statement (.ppuctrlP k) := by
  intro _
  exact ⟨row_of_fields (t := 0#4) (o := 2#4) (am := 0xE007#16) (ap := 0x2000#16) (dm := 0xFF#8) (dp := 0#8) rfl
    (winAddr_and 0#3 k) rfl, rfl, ⟨1, rfl⟩⟩

theorem TableRow.ppuctrlW (k : BitVec 10) (d : Byte) : TableRow.Statement (.ppuctrlW k d) := by
  intro _
  exact ⟨row_of_fields (t := 0#4) (o := 1#4) (am := 0xE007#16) (ap := 0x2000#16) (dm := 0x0#8) (dp := 0#8) rfl
    (winAddr_and 0#3 k) BitVec.and_zero, rfl, ⟨2, rfl⟩⟩

theorem TableRow.ppumaskR (k : BitVec 10) : TableRow.Statement (.ppumaskR k) := by
  intro _
  exact ⟨row_of_fields (t := 0#4) (o := 0#4) (am := 0xE007#16) (ap := 0x2001#16) (dm := 0xFF#8) (dp := 0#8) rfl
    (winAddr_and 1#3 k) rfl, rfl, ⟨3, rfl⟩⟩

theorem TableRow.ppumaskP (k : BitVec 10) : TableRow.Statement (.ppumaskP k) := by
  intro _
  exact ⟨row_of_fields (t := 0#4) (o := 2#4) (am := 0xE007#16) (ap := 0x2001#16) (dm := 0xFF#8) (dp := 0#8) rfl
    (winAddr_and 1#3 k) rfl, rfl, ⟨4, rfl⟩⟩

theorem TableRow.ppumaskW (k : BitVec 10) (d : Byte) : TableRow.Statement (.ppumaskW k d) := by
  intro _
  exact ⟨row_of_fields (t := 0#4) (o := 1#4) (am := 0xE007#16) (ap := 0x2001#16) (dm := 0x0#8) (dp := 0#8) rfl
    (winAddr_and 1#3 k) BitVec.and_zero, rfl, ⟨5, rfl⟩⟩

theorem TableRow.ppustatusR (k : BitVec 10) : TableRow.Statement (.ppustatusR k) := by
  intro _
  exact ⟨row_of_fields (t := 0#4) (o := 0#4) (am := 0xE007#16) (ap := 0x2002#16) (dm := 0xFF#8) (dp := 0#8) rfl
    (winAddr_and 2#3 k) rfl, rfl, ⟨6, rfl⟩⟩

theorem TableRow.ppustatusP (k : BitVec 10) : TableRow.Statement (.ppustatusP k) := by
  intro _
  exact ⟨row_of_fields (t := 0#4) (o := 2#4) (am := 0xE007#16) (ap := 0x2002#16) (dm := 0xFF#8) (dp := 0#8) rfl
    (winAddr_and 2#3 k) rfl, rfl, ⟨7, rfl⟩⟩

theorem TableRow.ppustatusW (k : BitVec 10) (d : Byte) : TableRow.Statement (.ppustatusW k d) := by
  intro _
  exact ⟨row_of_fields (t := 0#4) (o := 1#4) (am := 0xE007#16) (ap := 0x2002#16) (dm := 0x0#8) (dp := 0#8) rfl
    (winAddr_and 2#3 k) BitVec.and_zero, rfl, ⟨8, rfl⟩⟩

theorem TableRow.oamaddrR (k : BitVec 10) : TableRow.Statement (.oamaddrR k) := by
  intro _
  exact ⟨row_of_fields (t := 0#4) (o := 0#4) (am := 0xE007#16) (ap := 0x2003#16) (dm := 0xFF#8) (dp := 0#8) rfl
    (winAddr_and 3#3 k) rfl, rfl, ⟨9, rfl⟩⟩

theorem TableRow.oamaddrP (k : BitVec 10) : TableRow.Statement (.oamaddrP k) := by
  intro _
  exact ⟨row_of_fields (t := 0#4) (o := 2#4) (am := 0xE007#16) (ap := 0x2003#16) (dm := 0xFF#8) (dp := 0#8) rfl
    (winAddr_and 3#3 k) rfl, rfl, ⟨10, rfl⟩⟩

theorem TableRow.oamaddrW (k : BitVec 10) (d : Byte) : TableRow.Statement (.oamaddrW k d) := by
  intro _
  exact ⟨row_of_fields (t := 0#4) (o := 1#4) (am := 0xE007#16) (ap := 0x2003#16) (dm := 0x0#8) (dp := 0#8) rfl
    (winAddr_and 3#3 k) BitVec.and_zero, rfl, ⟨11, rfl⟩⟩

theorem TableRow.oamdataR (k : BitVec 10) : TableRow.Statement (.oamdataR k) := by
  intro _
  exact ⟨row_of_fields (t := 0#4) (o := 0#4) (am := 0xE007#16) (ap := 0x2004#16) (dm := 0xFF#8) (dp := 0#8) rfl
    (winAddr_and 4#3 k) rfl, rfl, ⟨12, rfl⟩⟩

theorem TableRow.oamdataP (k : BitVec 10) : TableRow.Statement (.oamdataP k) := by
  intro _
  exact ⟨row_of_fields (t := 0#4) (o := 2#4) (am := 0xE007#16) (ap := 0x2004#16) (dm := 0xFF#8) (dp := 0#8) rfl
    (winAddr_and 4#3 k) rfl, rfl, ⟨13, rfl⟩⟩

theorem TableRow.oamdataW (k : BitVec 10) (d : Byte) : TableRow.Statement (.oamdataW k d) := by
  intro _
  exact ⟨row_of_fields (t := 0#4) (o := 1#4) (am := 0xE007#16) (ap := 0x2004#16) (dm := 0x0#8) (dp := 0#8) rfl
    (winAddr_and 4#3 k) BitVec.and_zero, rfl, ⟨14, rfl⟩⟩

theorem TableRow.ppuscrollR (k : BitVec 10) : TableRow.Statement (.ppuscrollR k) := by
  intro _
  exact ⟨row_of_fields (t := 0#4) (o := 0#4) (am := 0xE007#16) (ap := 0x2005#16) (dm := 0xFF#8) (dp := 0#8) rfl
    (winAddr_and 5#3 k) rfl, rfl, ⟨15, rfl⟩⟩

theorem TableRow.ppuscrollP (k : BitVec 10) : TableRow.Statement (.ppuscrollP k) := by
  intro _
  exact ⟨row_of_fields (t := 0#4) (o := 2#4) (am := 0xE007#16) (ap := 0x2005#16) (dm := 0xFF#8) (dp := 0#8) rfl
    (winAddr_and 5#3 k) rfl, rfl, ⟨16, rfl⟩⟩

theorem TableRow.ppuscrollW (k : BitVec 10) (d : Byte) : TableRow.Statement (.ppuscrollW k d) := by
  intro _
  exact ⟨row_of_fields (t := 0#4) (o := 1#4) (am := 0xE007#16) (ap := 0x2005#16) (dm := 0x0#8) (dp := 0#8) rfl
    (winAddr_and 5#3 k) BitVec.and_zero, rfl, ⟨17, rfl⟩⟩

theorem TableRow.ppuaddrR (k : BitVec 10) : TableRow.Statement (.ppuaddrR k) := by
  intro _
  exact ⟨row_of_fields (t := 0#4) (o := 0#4) (am := 0xE007#16) (ap := 0x2006#16) (dm := 0xFF#8) (dp := 0#8) rfl
    (winAddr_and 6#3 k) rfl, rfl, ⟨18, rfl⟩⟩

theorem TableRow.ppuaddrP (k : BitVec 10) : TableRow.Statement (.ppuaddrP k) := by
  intro _
  exact ⟨row_of_fields (t := 0#4) (o := 2#4) (am := 0xE007#16) (ap := 0x2006#16) (dm := 0xFF#8) (dp := 0#8) rfl
    (winAddr_and 6#3 k) rfl, rfl, ⟨19, rfl⟩⟩

theorem TableRow.ppuaddrW (k : BitVec 10) (d : Byte) : TableRow.Statement (.ppuaddrW k d) := by
  intro _
  exact ⟨row_of_fields (t := 0#4) (o := 1#4) (am := 0xE007#16) (ap := 0x2006#16) (dm := 0x0#8) (dp := 0#8) rfl
    (winAddr_and 6#3 k) BitVec.and_zero, rfl, ⟨20, rfl⟩⟩

theorem TableRow.ppudataR (k : BitVec 10) : TableRow.Statement (.ppudataR k) := by
  intro _
  exact ⟨row_of_fields (t := 0#4) (o := 0#4) (am := 0xE007#16) (ap := 0x2007#16) (dm := 0xFF#8) (dp := 0#8) rfl
    (winAddr_and 7#3 k) rfl, rfl, ⟨21, rfl⟩⟩

theorem TableRow.ppudataP (k : BitVec 10) : TableRow.Statement (.ppudataP k) := by
  intro _
  exact ⟨row_of_fields (t := 0#4) (o := 2#4) (am := 0xE007#16) (ap := 0x2007#16) (dm := 0xFF#8) (dp := 0#8) rfl
    (winAddr_and 7#3 k) rfl, rfl, ⟨22, rfl⟩⟩

theorem TableRow.ppudataW (k : BitVec 10) (d : Byte) : TableRow.Statement (.ppudataW k d) := by
  intro _
  exact ⟨row_of_fields (t := 0#4) (o := 1#4) (am := 0xE007#16) (ap := 0x2007#16) (dm := 0x0#8) (dp := 0#8) rfl
    (winAddr_and 7#3 k) BitVec.and_zero, rfl, ⟨23, rfl⟩⟩

theorem TableRow.oamdmaR : TableRow.Statement .oamdmaR := by
  intro _
  exact ⟨row_of_fields (t := 0#4) (o := 0#4) (am := 0xFFFF#16) (ap := 0x4014#16) (dm := 0xFF#8) (dp := 0#8) rfl
    rfl rfl, rfl, ⟨24, rfl⟩⟩

theorem TableRow.oamdmaP : TableRow.Statement .oamdmaP := by
  intro _
  exact ⟨row_of_fields (t := 0#4) (o := 2#4) (am := 0xFFFF#16) (ap := 0x4014#16) (dm := 0xFF#8) (dp := 0#8) rfl
    rfl rfl, rfl, ⟨25, rfl⟩⟩

theorem TableRow.oamdmaW (d : Byte) : TableRow.Statement (.oamdmaW d) := by
  intro _
  exact ⟨row_of_fields (t := 0#4) (o := 1#4) (am := 0xFFFF#16) (ap := 0x4014#16) (dm := 0x0#8) (dp := 0#8) rfl
    rfl BitVec.and_zero, rfl, ⟨26, rfl⟩⟩

theorem TableRow.winOutsideR (a : Addr) : TableRow.Statement (.winOutsideR a) := by
  intro _
  exact ⟨row_of_fields (t := 0#4) (o := 0#4) (am := 0x0#16) (ap := 0x0#16) (dm := 0xFF#8) (dp := 0#8) rfl
    BitVec.and_zero rfl, rfl, ⟨27, rfl⟩⟩

theorem TableRow.winOutsideP (a : Addr) : TableRow.Statement (.winOutsideP a) := by
  intro _
  exact ⟨row_of_fields (t := 0#4) (o := 2#4) (am := 0x0#16) (ap := 0x0#16) (dm := 0xFF#8) (dp := 0#8) rfl
    BitVec.and_zero rfl, rfl, ⟨28, rfl⟩⟩

theorem TableRow.winOutsideW (a : Addr) (d : Byte) : TableRow.Statement (.winOutsideW a d) := by
  intro _
  exact ⟨row_of_fields (t := 0#4) (o := 1#4) (am := 0x0#16) (ap := 0x0#16) (dm := 0x0#8) (dp := 0#8) rfl
    BitVec.and_zero BitVec.and_zero, rfl, ⟨29, rfl⟩⟩

theorem TableRow.nromChrR (o : BitVec 13) : TableRow.Statement (.nromChrR o) := by
  intro _
  exact ⟨row_of_fields (t := 1#4) (o := 0#4) (am := 0xE000#16) (ap := 0x0#16) (dm := 0xFF#8) (dp := 0#8) rfl
    (chrAddr_and o) rfl, rfl, ⟨30, rfl⟩⟩

theorem TableRow.nromChrW (o : BitVec 13) (d : Byte) : TableRow.Statement (.nromChrW o d) := by
  intro _
  exact ⟨row_of_fields (t := 1#4) (o := 1#4) (am := 0xE000#16) (ap := 0x0#16) (dm := 0x0#8) (dp := 0#8) rfl
    (chrAddr_and o) BitVec.and_zero, rfl, ⟨31, rfl⟩⟩

theorem TableRow.nromPrgR (o : BitVec 15) : TableRow.Statement (.nromPrgR o) := by
  intro _
  exact ⟨row_of_fields (t := 1#4) (o := 0#4) (am := 0x8000#16) (ap := 0x8000#16) (dm := 0xFF#8) (dp := 0#8) rfl
    (prgAddr_and o) rfl, rfl, ⟨32, rfl⟩⟩

theorem TableRow.nromPrgW (o : BitVec 15) (d : Byte) : TableRow.Statement (.nromPrgW o d) := by
  intro _
  exact ⟨row_of_fields (t := 1#4) (o := 1#4) (am := 0x8000#16) (ap := 0x8000#16) (dm := 0x0#8) (dp := 0#8) rfl
    (prgAddr_and o) BitVec.and_zero, rfl, ⟨33, rfl⟩⟩

theorem TableRow.nromPeek (a : Addr) : TableRow.Statement (.nromPeek a) := by
  intro _
  exact ⟨row_of_fields (t := 1#4) (o := 2#4) (am := 0x0#16) (ap := 0x0#16) (dm := 0xFF#8) (dp := 0#8) rfl
    BitVec.and_zero rfl, rfl, ⟨34, rfl⟩⟩

theorem TableRow.nromUnmappedR (a : Addr) : TableRow.Statement (.nromUnmappedR a) := by
  intro _
  exact ⟨row_of_fields (t := 1#4) (o := 0#4) (am := 0x0#16) (ap := 0x0#16) (dm := 0xFF#8) (dp := 0#8) rfl
    BitVec.and_zero rfl, rfl, ⟨35, rfl⟩⟩

theorem TableRow.nromUnmappedW (a : Addr) (d : Byte) : TableRow.Statement (.nromUnmappedW a d) := by
  intro _
  exact ⟨row_of_fields (t := 1#4) (o := 1#4) (am := 0x0#16) (ap := 0x0#16) (dm := 0x0#8) (dp := 0#8) rfl
    BitVec.and_zero BitVec.and_zero, rfl, ⟨36, rfl⟩⟩

theorem TableRow.mmc1PrgramR (o : BitVec 13) : TableRow.Statement (.mmc1PrgramR o) := by
  intro _
  exact ⟨row_of_fields (t := 1#4) (o := 0#4) (am := 0xE000#16) (ap := 0x6000#16) (dm := 0xFF#8) (dp := 0#8) rfl
    (prgRamAddr_and o) rfl, rfl, ⟨37, rfl⟩⟩

theorem TableRow.mmc1PrgramW (o : BitVec 13) (d : Byte) : TableRow.Statement (.mmc1PrgramW o d) := by
  intro _
  exact ⟨row_of_fields (t := 1#4) (o := 1#4) (am := 0xE000#16) (ap := 0x6000#16) (dm := 0x0#8) (dp := 0#8) rfl
    (prgRamAddr_and o) BitVec.and_zero, rfl, ⟨38, rfl⟩⟩

theorem TableRow.mmc1WCtrl (o : BitVec 13) (d : Byte) : TableRow.Statement (.mmc1WCtrl o d) := by
  intro _
  exact ⟨row_of_fields (t := 1#4) (o := 1#4) (am := 0xE000#16) (ap := 0x8000#16) (dm := 0x0#8) (dp := 0#8) rfl
    (serialAddr_and 0#2 o) BitVec.and_zero, rfl, ⟨39, rfl⟩⟩

theorem TableRow.mmc1WChr0 (o : BitVec 13) (d : Byte) : TableRow.Statement (.mmc1WChr0 o d) := by
  intro _
  exact ⟨row_of_fields (t := 1#4) (o := 1#4) (am := 0xE000#16) (ap := 0xA000#16) (dm := 0x0#8) (dp := 0#8) rfl
    (serialAddr_and 1#2 o) BitVec.and_zero, rfl, ⟨40, rfl⟩⟩

theorem TableRow.mmc1WChr1 (o : BitVec 13) (d : Byte) : TableRow.Statement (.mmc1WChr1 o d) := by
  intro _
  exact ⟨row_of_fields (t := 1#4) (o := 1#4) (am := 0xE000#16) (ap := 0xC000#16) (dm := 0x0#8) (dp := 0#8) rfl
    (serialAddr_and 2#2 o) BitVec.and_zero, rfl, ⟨41, rfl⟩⟩

theorem TableRow.mmc1WPrg (o : BitVec 13) (d : Byte) : TableRow.Statement (.mmc1WPrg o d) := by
  intro _
  exact ⟨row_of_fields (t := 1#4) (o := 1#4) (am := 0xE000#16) (ap := 0xE000#16) (dm := 0x0#8) (dp := 0#8) rfl
    (serialAddr_and 3#2 o) BitVec.and_zero, rfl, ⟨42, rfl⟩⟩

theorem TableRow.mmc1PrgLoR (o : BitVec 14) : TableRow.Statement (.mmc1PrgLoR o) := by
  intro _
  exact ⟨row_of_fields (t := 1#4) (o := 0#4) (am := 0xC000#16) (ap := 0x8000#16) (dm := 0xFF#8) (dp := 0#8) rfl
    (prgLoAddr_and o) rfl, rfl, ⟨43, rfl⟩⟩

theorem TableRow.mmc1PrgHiR (o : BitVec 14) : TableRow.Statement (.mmc1PrgHiR o) := by
  intro _
  exact ⟨row_of_fields (t := 1#4) (o := 0#4) (am := 0xC000#16) (ap := 0xC000#16) (dm := 0xFF#8) (dp := 0#8) rfl
    (prgHiAddr_and o) rfl, rfl, ⟨44, rfl⟩⟩

theorem TableRow.mmc1ChrLoR (o : BitVec 12) : TableRow.Statement (.mmc1ChrLoR o) := by
  intro _
  exact ⟨row_of_fields (t := 1#4) (o := 0#4) (am := 0xF000#16) (ap := 0x0#16) (dm := 0xFF#8) (dp := 0#8) rfl
    (chrLoAddr_and o) rfl, rfl, ⟨45, rfl⟩⟩

theorem TableRow.mmc1ChrHiR (o : BitVec 12) : TableRow.Statement (.mmc1ChrHiR o) := by
  intro _
  exact ⟨row_of_fields (t := 1#4) (o := 0#4) (am := 0xF000#16) (ap := 0x1000#16) (dm := 0xFF#8) (dp := 0#8) rfl
    (chrHiAddr_and o) rfl, rfl, ⟨46, rfl⟩⟩

theorem TableRow.mmc1ChrW (o : BitVec 13) (d : Byte) : TableRow.Statement (.mmc1ChrW o d) := by
  intro _
  exact ⟨row_of_fields (t := 1#4) (o := 1#4) (am := 0xE000#16) (ap := 0x0#16) (dm := 0x0#8) (dp := 0#8) rfl
    (chrAddr_and o) BitVec.and_zero, rfl, ⟨47, rfl⟩⟩

theorem TableRow.mmc1Peek (a : Addr) : TableRow.Statement (.mmc1Peek a) := by
  intro _
  exact ⟨row_of_fields (t := 1#4) (o := 2#4) (am := 0x0#16) (ap := 0x0#16) (dm := 0xFF#8) (dp := 0#8) rfl
    BitVec.and_zero rfl, rfl, ⟨48, rfl⟩⟩

theorem TableRow.mmc1UnmappedR (a : Addr) : TableRow.Statement (.mmc1UnmappedR a) := by
  intro _
  exact ⟨row_of_fields (t := 1#4) (o := 0#4) (am := 0x0#16) (ap := 0x0#16) (dm := 0xFF#8) (dp := 0#8) rfl
    BitVec.and_zero rfl, rfl, ⟨49, rfl⟩⟩

theorem TableRow.mmc1UnmappedW (a : Addr) (d : Byte) : TableRow.Statement (.mmc1UnmappedW a d) := by
  intro _
  exact ⟨row_of_fields (t := 1#4) (o := 1#4) (am := 0x0#16) (ap := 0x0#16) (dm := 0x0#8) (dp := 0#8) rfl
    BitVec.and_zero BitVec.and_zero, rfl, ⟨50, rfl⟩⟩

theorem TableRow.uxromWBank (o : BitVec 15) (d : Byte) : TableRow.Statement (.uxromWBank o d) := by
  intro _
  exact ⟨row_of_fields (t := 1#4) (o := 1#4) (am := 0x8000#16) (ap := 0x8000#16) (dm := 0x0#8) (dp := 0#8) rfl
    (prgAddr_and o) BitVec.and_zero, rfl, ⟨51, rfl⟩⟩

theorem TableRow.uxromPrgLoR (o : BitVec 14) : TableRow.Statement (.uxromPrgLoR o) := by
  intro _
  exact ⟨row_of_fields (t := 1#4) (o := 0#4) (am := 0xC000#16) (ap := 0x8000#16) (dm := 0xFF#8) (dp := 0#8) rfl
    (prgLoAddr_and o) rfl, rfl, ⟨52, rfl⟩⟩

theorem TableRow.uxromPrgHiR (o : BitVec 14) : TableRow.Statement (.uxromPrgHiR o) := by
  intro _
  exact ⟨row_of_fields (t := 1#4) (o := 0#4) (am := 0xC000#16) (ap := 0xC000#16) (dm := 0xFF#8) (dp := 0#8) rfl
    (prgHiAddr_and o) rfl, rfl, ⟨53, rfl⟩⟩

theorem TableRow.uxromChrR (o : BitVec 13) : TableRow.Statement (.uxromChrR o) := by
  intro _
  exact ⟨row_of_fields (t := 1#4) (o := 0#4) (am := 0xE000#16) (ap := 0x0#16) (dm := 0xFF#8) (dp := 0#8) rfl
    (chrAddr_and o) rfl, rfl, ⟨54, rfl⟩⟩

theorem TableRow.uxromChrW (o : BitVec 13) (d : Byte) : TableRow.Statement (.uxromChrW o d) := by
  intro _
  exact ⟨row_of_fields (t := 1#4) (o := 1#4) (am := 0xE000#16) (ap := 0x0#16) (dm := 0x0#8) (dp := 0#8) rfl
    (chrAddr_and o) BitVec.and_zero, rfl, ⟨55, rfl⟩⟩

theorem TableRow.uxromPeek (a : Addr) : TableRow.Statement (.uxromPeek a) := by
  intro _
  exact ⟨row_of_fields (t := 1#4) (o := 2#4) (am := 0x0#16) (ap := 0x0#16) (dm := 0xFF#8) (dp := 0#8) rfl
    BitVec.and_zero rfl, rfl, ⟨56, rfl⟩⟩

theorem TableRow.uxromUnmappedR (a : Addr) : TableRow.Statement (.uxromUnmappedR a) := by
  intro _
  exact ⟨row_of_fields (t := 1#4) (o := 0#4) (am := 0x0#16) (ap := 0x0#16) (dm := 0xFF#8) (dp := 0#8) rfl
    BitVec.and_zero rfl, rfl, ⟨57, rfl⟩⟩

theorem TableRow.uxromUnmappedW (a : Addr) (d : Byte) : TableRow.Statement (.uxromUnmappedW a d) := by
  intro _
  exact ⟨row_of_fields (t := 1#4) (o := 1#4) (am := 0x0#16) (ap := 0x0#16) (dm := 0x0#8) (dp := 0#8) rfl
    BitVec.and_zero BitVec.and_zero, rfl, ⟨58, rfl⟩⟩

theorem TableRow.cnromWBank (o : BitVec 15) (d : Byte) : TableRow.Statement (.cnromWBank o d) := by
  intro _
  exact ⟨row_of_fields (t := 1#4) (o := 1#4) (am := 0x8000#16) (ap := 0x8000#16) (dm := 0x0#8) (dp := 0#8) rfl
    (prgAddr_and o) BitVec.and_zero, rfl, ⟨59, rfl⟩⟩

theorem TableRow.cnromChrR (o : BitVec 13) : TableRow.Statement (.cnromChrR o) := by
  intro _
  exact ⟨row_of_fields (t := 1#4) (o := 0#4) (am := 0xE000#16) (ap := 0x0#16) (dm := 0xFF#8) (dp := 0#8) rfl
    (chrAddr_and o) rfl, rfl, ⟨60, rfl⟩⟩

theorem TableRow.cnromChrW (o : BitVec 13) (d : Byte) : TableRow.Statement (.cnromChrW o d) := by
  intro _
  exact ⟨row_of_fields (t := 1#4) (o := 1#4) (am := 0xE000#16) (ap := 0x0#16) (dm := 0x0#8) (dp := 0#8) rfl
    (chrAddr_and o) BitVec.and_zero, rfl, ⟨61, rfl⟩⟩

theorem TableRow.cnromPrgR (o : BitVec 15) : TableRow.Statement (.cnromPrgR o) := by
  intro _
  exact ⟨row_of_fields (t := 1#4) (o := 0#4) (am := 0x8000#16) (ap := 0x8000#16) (dm := 0xFF#8) (dp := 0#8) rfl
    (prgAddr_and o) rfl, rfl, ⟨62, rfl⟩⟩

theorem TableRow.cnromPeek (a : Addr) : TableRow.Statement (.cnromPeek a) := by
  intro _
  exact ⟨row_of_fields (t := 1#4) (o := 2#4) (am := 0x0#16) (ap := 0x0#16) (dm := 0xFF#8) (dp := 0#8) rfl
    BitVec.and_zero rfl, rfl, ⟨63, rfl⟩⟩

theorem TableRow.cnromUnmappedR (a : Addr) : TableRow.Statement (.cnromUnmappedR a) := by
  intro _
  exact ⟨row_of_fields (t := 1#4) (o := 0#4) (am := 0x0#16) (ap := 0x0#16) (dm := 0xFF#8) (dp := 0#8) rfl
    BitVec.and_zero rfl, rfl, ⟨64, rfl⟩⟩

theorem TableRow.cnromUnmappedW (a : Addr) (d : Byte) : TableRow.Statement (.cnromUnmappedW a d) := by
  intro _
  exact ⟨row_of_fields (t := 1#4) (o := 1#4) (am := 0x0#16) (ap := 0x0#16) (dm := 0x0#8) (dp := 0#8) rfl
    BitVec.and_zero BitVec.and_zero, rfl, ⟨65, rfl⟩⟩

theorem TableRow.pbusPtR (o : BitVec 13) : TableRow.Statement (.pbusPtR o) := by
  intro _
  exact ⟨row_of_fields (t := 2#4) (o := 0#4) (am := 0xE000#16) (ap := 0x0#16) (dm := 0xFF#8) (dp := 0#8) rfl
    (ptBusAddr_and o) rfl, rfl, ⟨66, rfl⟩⟩

theorem TableRow.pbusPalR (o : BitVec 8) : TableRow.Statement (.pbusPalR o) := by
  intro _
  exact ⟨row_of_fields (t := 2#4) (o := 0#4) (am := 0xFF00#16) (ap := 0x3F00#16) (dm := 0xFF#8) (dp := 0#8) rfl
    (palBusAddr_and o) rfl, rfl, ⟨67, rfl⟩⟩

theorem TableRow.pbusNtR (o : BitVec 13) : TableRow.Statement (.pbusNtR o) := by
  intro _
  exact ⟨row_of_fields (t := 2#4) (o := 0#4) (am := 0xE000#16) (ap := 0x2000#16) (dm := 0xFF#8) (dp := 0#8) rfl
    (ntBusAddr_and o) rfl, rfl, ⟨68, rfl⟩⟩

theorem TableRow.pbusPtW (o : BitVec 13) (d : Byte) : TableRow.Statement (.pbusPtW o d) := by
  intro _
  exact ⟨row_of_fields (t := 2#4) (o := 1#4) (am := 0xE000#16) (ap := 0x0#16) (dm := 0x0#8) (dp := 0#8) rfl
    (ptBusAddr_and o) BitVec.and_zero, rfl, ⟨69, rfl⟩⟩

theorem TableRow.pbusPalW (o : BitVec 8) (d : Byte) : TableRow.Statement (.pbusPalW o d) := by
  intro _
  exact ⟨row_of_fields (t := 2#4) (o := 1#4) (am := 0xFF00#16) (ap := 0x3F00#16) (dm := 0x0#8) (dp := 0#8) rfl
    (palBusAddr_and o) BitVec.and_zero, rfl, ⟨70, rfl⟩⟩

theorem TableRow.pbusNtW (o : BitVec 13) (d : Byte) : TableRow.Statement (.pbusNtW o d) := by
  intro _
  exact ⟨row_of_fields (t := 2#4) (o := 1#4) (am := 0xE000#16) (ap := 0x2000#16) (dm := 0x0#8) (dp := 0#8) rfl
    (ntBusAddr_and o) BitVec.and_zero, rfl, ⟨71, rfl⟩⟩

theorem TableRow.pbusPtP (o : BitVec 13) : TableRow.Statement (.pbusPtP o) := by
  intro _
  exact ⟨row_of_fields (t := 2#4) (o := 2#4) (am := 0xE000#16) (ap := 0x0#16) (dm := 0xFF#8) (dp := 0#8) rfl
    (ptBusAddr_and o) rfl, rfl, ⟨72, rfl⟩⟩

theorem TableRow.pbusPalP (o : BitVec 8) : TableRow.Statement (.pbusPalP o) := by
  intro _
  exact ⟨row_of_fields (t := 2#4) (o := 2#4) (am := 0xFF00#16) (ap := 0x3F00#16) (dm := 0xFF#8) (dp := 0#8) rfl
    (palBusAddr_and o) rfl, rfl, ⟨73, rfl⟩⟩

theorem TableRow.pbusNtP (o : BitVec 13) : TableRow.Statement (.pbusNtP o) := by
  intro _
  exact ⟨row_of_fields (t := 2#4) (o := 2#4) (am := 0xE000#16) (ap := 0x2000#16) (dm := 0xFF#8) (dp := 0#8) rfl
    (ntBusAddr_and o) rfl, rfl, ⟨74, rfl⟩⟩

theorem TableRow.ppuTick : TableRow.Statement .ppuTick := by
  intro _
  exact ⟨row_of_fields (t := 3#4) (o := 3#4) (am := 0xFFFF#16) (ap := 0x0#16) (dm := 0xFF#8) (dp := 0#8) rfl
    rfl rfl, rfl, ⟨75, rfl⟩⟩

theorem TableRow.ppuPowerCycle : TableRow.Statement .ppuPowerCycle := by
  intro _
  exact ⟨row_of_fields (t := 3#4) (o := 4#4) (am := 0xFFFF#16) (ap := 0x0#16) (dm := 0xFF#8) (dp := 0#8) rfl
    rfl rfl, rfl, ⟨76, rfl⟩⟩

theorem TableRow.ppuReset : TableRow.Statement .ppuReset := by
  intro _
  exact ⟨row_of_fields (t := 3#4) (o := 5#4) (am := 0xFFFF#16) (ap := 0x0#16) (dm := 0xFF#8) (dp := 0#8) rfl
    rfl rfl, rfl, ⟨77, rfl⟩⟩

theorem TableRow.ppuFramebuffer : TableRow.Statement .ppuFramebuffer := by
  intro _
  exact ⟨row_of_fields (t := 3#4) (o := 7#4) (am := 0xFFFF#16) (ap := 0x0#16) (dm := 0xFF#8) (dp := 0#8) rfl
    rfl rfl, rfl, ⟨78, rfl⟩⟩

theorem TableRow.ppuFrameCount : TableRow.Statement .ppuFrameCount := by
  intro _
  exact ⟨row_of_fields (t := 3#4) (o := 8#4) (am := 0xFFFF#16) (ap := 0x0#16) (dm := 0xFF#8) (dp := 0#8) rfl
    rfl rfl, rfl, ⟨79, rfl⟩⟩

theorem TableRow.mapFactory (id : Byte) : TableRow.Statement (.mapFactory id) := by
  intro _
  exact ⟨row_of_fields (t := 4#4) (o := 9#4) (am := 0xFFFF#16) (ap := 0x0#16) (dm := 0x0#8) (dp := 0#8) rfl
    rfl BitVec.and_zero, rfl, ⟨80, rfl⟩⟩

theorem TableRow.mapTick : TableRow.Statement .mapTick := by
  intro _
  exact ⟨row_of_fields (t := 4#4) (o := 3#4) (am := 0xFFFF#16) (ap := 0x0#16) (dm := 0xFF#8) (dp := 0#8) rfl
    rfl rfl, rfl, ⟨81, rfl⟩⟩

theorem TableRow.mapMirroring : TableRow.Statement .mapMirroring := by
  intro _
  exact ⟨row_of_fields (t := 4#4) (o := 6#4) (am := 0xFFFF#16) (ap := 0x0#16) (dm := 0xFF#8) (dp := 0#8) rfl
    rfl rfl, rfl, ⟨82, rfl⟩⟩

end Sys2Proof.Laws
end

