-- ==== Sys2Proof/Laws/Tick.lean ====
section
/-! SUPPORT. What each part of a tick can do, and a tick as a whole. -/

namespace Sys2Proof.Machine

/-- The flag events write the three flags and, at (241, 1), the history. -/
theorem flagEvents_frame (s : State) :
    flagEvents s = { s with
      ppu := { s.ppu with vblank := (flagEvents s).ppu.vblank, s0hit := (flagEvents s).ppu.s0hit,
                          overflow := (flagEvents s).ppu.overflow },
      history := (flagEvents s).history } := by
  unfold flagEvents
  split
  · unfold vblankStart
    simp only
    split <;> rfl
  · split <;> rfl

/-- The background fetches and shifts write `bg` and `v`. -/
def BgFrame (s t : State) : Prop := t = s.setPpu { s.ppu with bg := t.ppu.bg, v := t.ppu.v }

theorem BgFrame.refl (s : State) : BgFrame s s := rfl

theorem BgFrame.trans {s t u : State} (h : BgFrame s t) (k : BgFrame t u) : BgFrame s u := by
  unfold BgFrame at *
  rw [k]; rw [h]; rfl

theorem BgFrame.setBg (s : State) (b : Background) : BgFrame s (s.setBg b) := rfl
theorem BgFrame.setV (s : State) (v : BitVec 15) : BgFrame s (s.setV v) := rfl

theorem fetch_frame {s t : State} {r : Option Byte} {f : Byte → Background} (h : r.map (fun b => s.setBg (f b)) = some t) :
    BgFrame s t := by
  obtain ⟨b, -, rfl⟩ := Option.map_eq_some_iff.1 h
  exact .setBg s _

theorem shiftAndReload_frame (d : Nat) (s : State) : BgFrame s (shiftAndReload d s) := by
  unfold shiftAndReload
  simp only
  split <;> split <;> rfl

theorem groupWork_frame {d : Nat} {s t : State} (h : groupWork d s = some t) : BgFrame s t := by
  unfold groupWork at h
  split at h
  · unfold groupStep at h
    split at h
    · exact fetch_frame h
    · exact fetch_frame h
    · exact fetch_frame h
    · exact fetch_frame h
    · cases h; exact .setV s _
    · cases h; exact .refl s
  · cases h; exact .refl s

theorem scrollWork_frame (d : Nat) (s : State) : BgFrame s (scrollWork d s) := by
  unfold scrollWork
  simp only
  split <;> split <;> rfl

theorem unusedFetch_frame {d : Nat} {s t : State} (h : unusedFetch d s = some t) : BgFrame s t := by
  unfold unusedFetch at h
  split at h
  · exact fetch_frame h
  · cases h; exact .refl s

theorem verticalCopy_frame (line d : Nat) (s : State) : BgFrame s (verticalCopy line d s) := by
  unfold verticalCopy
  split
  · exact .setV s _
  · exact .refl s

/-- The sub-steps of `bg_step`, named (R132). -/
theorem bgStep_eq_some {line d : Nat} {s t : State} :
    bgStep line d s = some t ↔
      ∃ a b, groupWork d (shiftAndReload d s) = some a ∧ unusedFetch d (scrollWork d a) = some b ∧
        t = verticalCopy line d b := by
  simp only [bgStep, Option.map_eq_some_iff, Option.bind_eq_some_iff]
  constructor
  · rintro ⟨b, ⟨a, ha, hb⟩, rfl⟩; exact ⟨a, b, ha, hb, rfl⟩
  · rintro ⟨a, b, ha, hb, rfl⟩; exact ⟨b, ⟨a, ha, hb⟩, rfl⟩

/-- The background step writes `bg` and `v` only. -/
theorem bgStep_frame {line d : Nat} {s t : State} (h : bgStep line d s = some t) : BgFrame s t := by
  obtain ⟨a, b, ha, hb, rfl⟩ := bgStep_eq_some.1 h
  exact (((shiftAndReload_frame d s).trans (groupWork_frame ha)).trans
    ((scrollWork_frame d a).trans (unusedFetch_frame hb))).trans (verticalCopy_frame line d b)

theorem shiftAndReload_latches (d : Nat) (s : State) :
    (shiftAndReload d s).ppu.bg.ntLatch = s.ppu.bg.ntLatch ∧ (shiftAndReload d s).ppu.bg.atLatch = s.ppu.bg.atLatch ∧
    (shiftAndReload d s).ppu.bg.ptLoLatch = s.ppu.bg.ptLoLatch ∧
    (shiftAndReload d s).ppu.bg.ptHiLatch = s.ppu.bg.ptHiLatch := by
  unfold shiftAndReload
  simp only
  split <;> split <;> exact ⟨rfl, rfl, rfl, rfl⟩

theorem scrollWork_bg (d : Nat) (s : State) : (scrollWork d s).ppu.bg = s.ppu.bg := by
  unfold scrollWork
  simp only
  split <;> split <;> rfl

theorem verticalCopy_bg (line d : Nat) (s : State) : (verticalCopy line d s).ppu.bg = s.ppu.bg := by
  unfold verticalCopy
  split <;> rfl

/-- A dot of a fetch group fills the one latch of its place in the group (R132). -/
theorem groupWork_latches {d : Nat} {s t : State} (h : groupWork d s = some t) :
    (t.ppu.bg.ntLatch = s.ppu.bg.ntLatch ∨ (groupDot d = true ∧ d % 8 = 1)) ∧
    (t.ppu.bg.atLatch = s.ppu.bg.atLatch ∨ (groupDot d = true ∧ d % 8 = 3)) ∧
    (t.ppu.bg.ptLoLatch = s.ppu.bg.ptLoLatch ∨ (groupDot d = true ∧ d % 8 = 5)) ∧
    (t.ppu.bg.ptHiLatch = s.ppu.bg.ptHiLatch ∨ (groupDot d = true ∧ d % 8 = 7)) := by
  unfold groupWork at h
  split at h
  next hg =>
    have hd : 1 ≤ d := by simp [groupDot] at hg; omega
    generalize hp : (d - 1) % 8 = place at h
    unfold groupStep at h
    split at h
    · obtain ⟨b, -, rfl⟩ := Option.map_eq_some_iff.1 h
      exact ⟨.inr ⟨hg, by omega⟩, .inl rfl, .inl rfl, .inl rfl⟩
    · obtain ⟨b, -, rfl⟩ := Option.map_eq_some_iff.1 h
      exact ⟨.inl rfl, .inr ⟨hg, by omega⟩, .inl rfl, .inl rfl⟩
    · obtain ⟨b, -, rfl⟩ := Option.map_eq_some_iff.1 h
      exact ⟨.inl rfl, .inl rfl, .inr ⟨hg, by omega⟩, .inl rfl⟩
    · obtain ⟨b, -, rfl⟩ := Option.map_eq_some_iff.1 h
      exact ⟨.inl rfl, .inl rfl, .inl rfl, .inr ⟨hg, by omega⟩⟩
    · cases h; exact ⟨.inl rfl, .inl rfl, .inl rfl, .inl rfl⟩
    · cases h; exact ⟨.inl rfl, .inl rfl, .inl rfl, .inl rfl⟩
  next => cases h; exact ⟨.inl rfl, .inl rfl, .inl rfl, .inl rfl⟩

theorem unusedFetch_latches {d : Nat} {s t : State} (h : unusedFetch d s = some t) :
    (t.ppu.bg.ntLatch = s.ppu.bg.ntLatch ∨ d = 337 ∨ d = 339) ∧ t.ppu.bg.atLatch = s.ppu.bg.atLatch ∧
    t.ppu.bg.ptLoLatch = s.ppu.bg.ptLoLatch ∧ t.ppu.bg.ptHiLatch = s.ppu.bg.ptHiLatch := by
  unfold unusedFetch at h
  split at h
  next hd => obtain ⟨b, -, rfl⟩ := Option.map_eq_some_iff.1 h; exact ⟨.inr hd, rfl, rfl, rfl⟩
  next => cases h; exact ⟨.inl rfl, rfl, rfl, rfl⟩

/-- The dots at which the background step fills each latch (R132, R135 to R137). -/
theorem bgStep_latches {line d : Nat} {s t : State} (h : bgStep line d s = some t) :
    (t.ppu.bg.ntLatch = s.ppu.bg.ntLatch ∨ (groupDot d = true ∧ d % 8 = 1) ∨ d = 337 ∨ d = 339) ∧
    (t.ppu.bg.atLatch = s.ppu.bg.atLatch ∨ (groupDot d = true ∧ d % 8 = 3)) ∧
    (t.ppu.bg.ptLoLatch = s.ppu.bg.ptLoLatch ∨ (groupDot d = true ∧ d % 8 = 5)) ∧
    (t.ppu.bg.ptHiLatch = s.ppu.bg.ptHiLatch ∨ (groupDot d = true ∧ d % 8 = 7)) := by
  obtain ⟨a, b, ha, hb, rfl⟩ := bgStep_eq_some.1 h
  obtain ⟨n1, a1, l1, h1⟩ := shiftAndReload_latches d s
  obtain ⟨n2, a2, l2, h2⟩ := groupWork_latches ha
  obtain ⟨n3, a3, l3, h3⟩ := unusedFetch_latches hb
  rw [scrollWork_bg] at n3 a3 l3 h3
  rw [verticalCopy_bg, a3, l3, h3, ← n1, ← a1, ← l1, ← h1]
  refine ⟨?_, a2, l2, h2⟩
  rcases n3 with e | e
  · rw [e]; exact n2.imp_right .inl
  · exact .inr (.inr e)

theorem backgroundStep_frame {en : Bool} {line d : Nat} {s t : State} (h : backgroundStep en line d s = some t) :
    BgFrame s t := by
  unfold backgroundStep at h
  split at h
  · exact bgStep_frame h
  · cases h; exact .refl s

/-- The background pipeline is at work on the visible lines and the pre-render line with rendering enabled (R121). -/
theorem backgroundStep_writes {en : Bool} {line d : Nat} {s t : State} (h : backgroundStep en line d s = some t) :
    (t.ppu.bg = s.ppu.bg ∧ t.ppu.v = s.ppu.v) ∨ ((line < 240 ∨ line = 261) ∧ en = true) := by
  unfold backgroundStep at h
  split at h
  next hc => exact .inr hc
  next => cases h; exact .inl ⟨rfl, rfl⟩

theorem storePixel_frame (s : State) (line x : Nat) (a : BusAddr) :
    storePixel s line x a = s.setPpu { s.ppu with framebuffer := (storePixel s line x a).ppu.framebuffer } := rfl

theorem hitSprite0_frame (s : State) (x : Nat) (p : BitVec 2) (spr : Option SprPixel) :
    hitSprite0 s x p spr = s.setPpu { s.ppu with s0hit := (hitSprite0 s x p spr).ppu.s0hit } := by
  unfold hitSprite0
  cases spr with
  | none => rfl
  | some q => simp only; split <;> rfl

/-- Pixel output writes one pixel and the sprite-0 hit flag. -/
theorem pixelStep_frame (en : Bool) (line d : Nat) (s : State) :
    pixelStep en line d s = s.setPpu { s.ppu with s0hit := (pixelStep en line d s).ppu.s0hit,
                                                  framebuffer := (pixelStep en line d s).ppu.framebuffer } := by
  unfold pixelStep
  split
  · split
    · unfold renderPixel
      simp only
      rw [storePixel_frame, hitSprite0_frame]
      rfl
    · rfl
  · rfl

/-- The sprite pipeline writes secondary OAM, its own registers and the overflow flag. -/
theorem spriteStep_frame {en : Bool} {line d : Nat} {s t : State} (h : spriteStep en line d s = some t) :
    t = { s with
          ppu := { s.ppu with overflow := t.ppu.overflow, soamCount := t.ppu.soamCount, spr0Next := t.ppu.spr0Next,
                              units := t.ppu.units, unitCount := t.ppu.unitCount, spr0Line := t.ppu.spr0Line },
          soam := t.soam } := by
  unfold spriteStep at h
  split at h
  · split at h
    · cases h; rfl
    · split at h
      · cases h; rfl
      · split at h
        · split at h
          · obtain ⟨us, -, rfl⟩ := Option.map_eq_some_iff.1 h; rfl
          · cases h; rfl
        · cases h; rfl
  · split at h
    · cases h; rfl
    · cases h; rfl

/-- The dots at which the sprite pipeline writes each of its fields (R143 to R146). -/
theorem spriteStep_writes {en : Bool} {line d : Nat} {s t : State} (h : spriteStep en line d s = some t) :
    (t.soam = s.soam ∨ (line < 240 ∧ (d = 64 ∨ d = 256) ∧ en = true)) ∧
    ((t.ppu.soamCount = s.ppu.soamCount ∧ t.ppu.spr0Next = s.ppu.spr0Next) ∨ (line < 240 ∧ d = 256 ∧ en = true)) ∧
    (t.ppu.units = s.ppu.units ∨ (line < 240 ∧ d = 257 ∧ en = true)) ∧
    ((t.ppu.unitCount = s.ppu.unitCount ∧ t.ppu.spr0Line = s.ppu.spr0Line) ∨
      ((line < 240 ∨ line = 261) ∧ d = 257)) := by
  unfold spriteStep at h
  split at h
  next hl =>
    split at h
    next hd => cases h; exact ⟨.inr ⟨hl, .inl hd.1, hd.2⟩, .inl ⟨rfl, rfl⟩, .inl rfl, .inl ⟨rfl, rfl⟩⟩
    next =>
      split at h
      next hd => cases h; exact ⟨.inr ⟨hl, .inr hd.1, hd.2⟩, .inr ⟨hl, hd⟩, .inl rfl, .inl ⟨rfl, rfl⟩⟩
      next =>
        split at h
        next hd =>
          split at h
          next he =>
            obtain ⟨us, -, rfl⟩ := Option.map_eq_some_iff.1 h
            exact ⟨.inl rfl, .inl ⟨rfl, rfl⟩, .inr ⟨hl, hd, he⟩, .inr ⟨.inl hl, hd⟩⟩
          next => cases h; exact ⟨.inl rfl, .inl ⟨rfl, rfl⟩, .inl rfl, .inr ⟨.inl hl, hd⟩⟩
        next => cases h; exact ⟨.inl rfl, .inl ⟨rfl, rfl⟩, .inl rfl, .inl ⟨rfl, rfl⟩⟩
  next =>
    split at h
    next hd => cases h; exact ⟨.inl rfl, .inl ⟨rfl, rfl⟩, .inl rfl, .inr ⟨.inr hd.1, hd.2⟩⟩
    next => cases h; exact ⟨.inl rfl, .inl ⟨rfl, rfl⟩, .inl rfl, .inl ⟨rfl, rfl⟩⟩

/-- The states between the four steps of `DotWork` (R121). -/
theorem dotWork_eq_some {s t : State} :
    dotWork s = some t ↔
      ∃ a, backgroundStep (renderingEnabled s.ppu.mask) s.ppu.scanline s.ppu.dot (flagEvents s) = some a ∧
        spriteStep (renderingEnabled s.ppu.mask) s.ppu.scanline s.ppu.dot
          (pixelStep (renderingEnabled s.ppu.mask) s.ppu.scanline s.ppu.dot a) = some t := by
  simp [dotWork, Option.bind_eq_some_iff]

/-- What the work of a dot can write. -/
def DotFrame (s t : State) : Prop :=
  t = { s with
        ppu := { s.ppu with
                 vblank := t.ppu.vblank, s0hit := t.ppu.s0hit, overflow := t.ppu.overflow, v := t.ppu.v, bg := t.ppu.bg,
                 soamCount := t.ppu.soamCount, spr0Next := t.ppu.spr0Next, units := t.ppu.units,
                 unitCount := t.ppu.unitCount, spr0Line := t.ppu.spr0Line, framebuffer := t.ppu.framebuffer },
        soam := t.soam, history := t.history }

theorem dotWork_frame {s t : State} (h : dotWork s = some t) : DotFrame s t := by
  obtain ⟨a, ha, ht⟩ := dotWork_eq_some.1 h
  have h1 := flagEvents_frame s
  have h2 := backgroundStep_frame ha
  have h3 := pixelStep_frame (renderingEnabled s.ppu.mask) s.ppu.scanline s.ppu.dot a
  have h4 := spriteStep_frame ht
  unfold BgFrame at h2
  unfold DotFrame
  rw [h4, h3, h2, h1]
  rfl

/-- A tick is the work of its dot, then the advance, from the position and `rendering_enabled` it starts with. -/
theorem exec_ppuTick_eq_next {s t : State} :
    exec .ppuTick s = .next t ↔
      ∃ a, dotWork s = some a ∧
        t = (a.setPpu (advance s.cfg (renderingEnabled s.ppu.mask) a.ppu)).setReply .none := by
  simp only [exec, execPpuTick, orNoCartridge_eq_next, tick, Option.map_eq_some_iff, done, Host.Outcome.next.injEq]
  constructor
  · rintro ⟨_, ⟨a, ha, rfl⟩, rfl⟩; exact ⟨a, ha, rfl⟩
  · rintro ⟨a, ha, rfl⟩; exact ⟨_, ⟨a, ha, rfl⟩, rfl⟩

/-- The position, the frame count and the parity after an advance (R126). -/
theorem advance_eq (cfg : Params) (en : Bool) (p : Ppu) :
    advance cfg en p =
      if p.scanline = 261 ∧ p.dot = 339 ∧ cfg.oddFrameSkip = true ∧ p.oddFrame = true ∧ en = true then frameEnd p
      else if p.dot = 340 then
        if p.scanline = 261 then frameEnd p else { p with dot := 0, scanline := p.scanline + 1 }
      else { p with dot := p.dot + 1 } := by
  simp only [advance, skipsDot, Bool.and_eq_true, beq_iff_eq, and_assoc]

/-- The advance writes the position, the frame count and the frame's parity. -/
theorem advance_frame (cfg : Params) (en : Bool) (p : Ppu) :
    advance cfg en p = { p with scanline := (advance cfg en p).scanline, dot := (advance cfg en p).dot,
                                frameCount := (advance cfg en p).frameCount, oddFrame := (advance cfg en p).oddFrame } := by
  generalize h : advance cfg en p = q
  rw [advance_eq] at h
  split at h
  · subst h; rfl
  · split at h
    · split at h
      · subst h; rfl
      · subst h; rfl
    · subst h; rfl

/-! ## Sessions -/

theorem execAll_append {is js : List Instr} {s t : State} (h : execAll is s = .next t) :
    execAll (is ++ js) s = execAll js t := by
  induction is generalizing s with
  | nil => cases h; rfl
  | cons i is ih =>
    simp only [List.cons_append, execAll] at *
    cases hs : exec i s with
    | next u => rw [hs] at h; exact ih h
    | fault r => rw [hs] at h; cases h
    | refused r => rw [hs] at h; cases h

theorem execAll_cons_eq_next {i : Instr} {is : List Instr} {s t : State} :
    execAll (i :: is) s = .next t ↔ ∃ u, exec i s = .next u ∧ execAll is u = .next t := by
  simp only [execAll]
  cases exec i s <;> simp

theorem execAll_append_eq_next {is js : List Instr} {s t : State} :
    execAll (is ++ js) s = .next t ↔ ∃ u, execAll is s = .next u ∧ execAll js u = .next t := by
  induction is generalizing s with
  | nil => simp [execAll]
  | cons i is ih =>
    rw [List.cons_append, execAll_cons_eq_next]
    simp only [ih, execAll_cons_eq_next]
    constructor
    · rintro ⟨u, hu, v, hv, ht⟩; exact ⟨v, ⟨u, hu, hv⟩, ht⟩
    · rintro ⟨v, ⟨u, hu, hv⟩, ht⟩; exact ⟨u, hu, v, hv, ht⟩

/-- With rendering disabled a tick completes, mapper or not, and keeps the mask (R156). -/
theorem exec_ppuTick_disabled {s : State} (h : renderingEnabled s.ppu.mask = false) :
    ∃ t, exec .ppuTick s = .next t ∧ t.ppu.mask = s.ppu.mask := by
  have hb : ∃ a, dotWork s = some a := by
    simp only [dotWork, h, backgroundStep]
    simp only [Bool.false_eq_true, and_false, if_false, Option.bind_some]
    unfold spriteStep
    split
    · simp only [Bool.false_eq_true, and_false, if_false]
      split <;> exact ⟨_, rfl⟩
    · split <;> exact ⟨_, rfl⟩
  obtain ⟨a, ha⟩ := hb
  refine ⟨_, exec_ppuTick_eq_next.2 ⟨a, ha, rfl⟩, ?_⟩
  have f := dotWork_frame ha
  rw [State.setReply_ppu, State.setPpu_ppu, advance_frame]
  unfold DotFrame at f
  rw [f]

/-- Any number of ticks completes with rendering disabled. -/
theorem ticks_disabled {s : State} (h : renderingEnabled s.ppu.mask = false) (n : Nat) :
    ∃ t, ticks n s = .next t ∧ t.ppu.mask = s.ppu.mask := by
  induction n generalizing s with
  | zero => exact ⟨s, rfl, rfl⟩
  | succ n ih =>
    obtain ⟨u, hu, hm⟩ := exec_ppuTick_disabled h
    obtain ⟨t, ht, hm'⟩ := ih (s := u) (by rw [hm]; exact h)
    refine ⟨t, ?_, hm'.trans hm⟩
    unfold ticks at *
    rw [List.replicate_succ, execAll_cons_eq_next]
    exact ⟨u, hu, ht⟩

end Sys2Proof.Machine
end

