-- ==== Sys2Proof/Tests/Slice0.lean ====
section
/-! SUPPORT. Tests: ill-formed terms, the written-out word of every constructor, the worked examples of spec/ one step at a
time (95_test_vectors.md and the examples of the rules), and a state that meets the hypotheses of each statement. The
expected values are the spec's. -/

namespace Sys2Proof.Tests

open Sys2Proof.Machine

/-! ## Helpers -/

/-- The state right after construction with `p` as the PPU and `m` in the slot. -/
def at_ (p : Ppu) (m : Option Mapper := none) : State := { State.reset with ppu := p, mapper := m }

/-- A mapper with a few listed bytes. -/
def mapper (regs : MapperRegs) (prgSize chrSize : Nat) (prg chr : Memory) (hint : Hint := .horizontal) : Mapper :=
  { prg := prg, prgSize := prgSize, chr := chr, chrSize := chrSize, hint := hint, regs := regs }

/-- The machine with that mapper. -/
def cart (m : Mapper) : State := { State.reset with mapper := some m }

/-- What the host gets back. -/
def replyOf (r : Result) : Option Reply :=
  match r with
  | .next t => some t.reply
  | .fault _ => none
  | .refused _ => none

/-- A property of the next state. -/
def after (r : Result) (f : State → Bool) : Bool :=
  match r with
  | .next t => f t
  | .fault _ => false
  | .refused _ => false

def refusedWith (r : Result) (q : Refusal) : Bool :=
  match r with
  | .next _ => false
  | .fault _ => false
  | .refused q' => q == q'

def ppu0 : Ppu := State.reset.ppu

/-! ## Well-formedness refuses an ill-formed term of each check -/

theorem test_wf_window_addresses :
    (Instr.winOutsideR 0x2000#16).wf = false ∧ (Instr.winOutsideP 0x3FFF#16).wf = false ∧
    (Instr.winOutsideW 0x4014#16 0#8).wf = false ∧ (Instr.winOutsideR 0x4013#16).wf = true := by decide
theorem test_wf_nrom_mapped :
    (Instr.nromUnmappedR 0x1FFF#16).wf = false ∧ (Instr.nromUnmappedW 0x8000#16 0#8).wf = false ∧
    (Instr.nromUnmappedR 0x6000#16).wf = true := by decide
theorem test_wf_mmc1_mapped :
    (Instr.mmc1UnmappedR 0x6000#16).wf = false ∧ (Instr.mmc1UnmappedW 0x7FFF#16 0#8).wf = false ∧
    (Instr.mmc1UnmappedR 0x5FFF#16).wf = true := by decide
theorem test_wf_uxrom_mapped :
    (Instr.uxromUnmappedR 0x0000#16).wf = false ∧ (Instr.uxromUnmappedW 0xFFFF#16 0#8).wf = false ∧
    (Instr.uxromUnmappedR 0x2000#16).wf = true := by decide
theorem test_wf_cnrom_mapped :
    (Instr.cnromUnmappedR 0x1000#16).wf = false ∧ (Instr.cnromUnmappedW 0xC000#16 0#8).wf = false ∧
    (Instr.cnromUnmappedR 0x7FFF#16).wf = true := by decide
theorem test_wf_palette_is_no_nametable :
    (Instr.pbusNtR 0x1F00#13).wf = false ∧ (Instr.pbusNtW 0x1FFF#13 0#8).wf = false ∧
    (Instr.pbusNtP 0x1F10#13).wf = false ∧ (Instr.pbusNtR 0x1EFF#13).wf = true := by decide

/-! ## Decoding: a word of every row, written out from R54 (`T:4 O:4 A:16 D:8`) and R38, R39, R41 -/

theorem test_decode_window_reads : ∀ slot,
    decode slot 0x00200000#32 = .ok (.ppuctrlR 0) ∧ decode slot 0x00200100#32 = .ok (.ppumaskR 0) ∧
    decode slot 0x00200200#32 = .ok (.ppustatusR 0) ∧ decode slot 0x00200300#32 = .ok (.oamaddrR 0) ∧
    decode slot 0x00200400#32 = .ok (.oamdataR 0) ∧ decode slot 0x00200500#32 = .ok (.ppuscrollR 0) ∧
    decode slot 0x00200600#32 = .ok (.ppuaddrR 0) ∧ decode slot 0x003FFF00#32 = .ok (.ppudataR 0x3FF) ∧
    decode slot 0x00401400#32 = .ok .oamdmaR ∧ decode slot 0x00001000#32 = .ok (.winOutsideR 0x0010) := by
  intro slot; rcases slot with _ | v; · decide
  · cases v <;> decide
theorem test_decode_window_peeks : ∀ slot,
    decode slot 0x02200000#32 = .ok (.ppuctrlP 0) ∧ decode slot 0x02200900#32 = .ok (.ppumaskP 1) ∧
    decode slot 0x02200200#32 = .ok (.ppustatusP 0) ∧ decode slot 0x02200300#32 = .ok (.oamaddrP 0) ∧
    decode slot 0x02200400#32 = .ok (.oamdataP 0) ∧ decode slot 0x02200500#32 = .ok (.ppuscrollP 0) ∧
    decode slot 0x02200600#32 = .ok (.ppuaddrP 0) ∧ decode slot 0x02200700#32 = .ok (.ppudataP 0) ∧
    decode slot 0x02401400#32 = .ok .oamdmaP ∧ decode slot 0x02401500#32 = .ok (.winOutsideP 0x4015) := by
  intro slot; rcases slot with _ | v; · decide
  · cases v <;> decide
theorem test_decode_window_writes : ∀ slot,
    decode slot 0x01200080#32 = .ok (.ppuctrlW 0 0x80) ∧ decode slot 0x0120011E#32 = .ok (.ppumaskW 0 0x1E) ∧
    decode slot 0x012002FF#32 = .ok (.ppustatusW 0 0xFF) ∧ decode slot 0x01200310#32 = .ok (.oamaddrW 0 0x10) ∧
    decode slot 0x01200444#32 = .ok (.oamdataW 0 0x44) ∧ decode slot 0x0120057D#32 = .ok (.ppuscrollW 0 0x7D) ∧
    decode slot 0x013FFE05#32 = .ok (.ppuaddrW 0x3FF 0x05) ∧ decode slot 0x01200755#32 = .ok (.ppudataW 0 0x55) ∧
    decode slot 0x01401402#32 = .ok (.oamdmaW 0x02) ∧ decode slot 0x01400012#32 = .ok (.winOutsideW 0x4000 0x12) := by
  intro slot; rcases slot with _ | v; · decide
  · cases v <;> decide
theorem test_decode_nrom :
    decode (some .nrom) 0x101FFF00#32 = .ok (.nromChrR 0x1FFF) ∧
    decode (some .nrom) 0x110010FF#32 = .ok (.nromChrW 0x0010 0xFF) ∧
    decode (some .nrom) 0x10C12300#32 = .ok (.nromPrgR 0x4123) ∧
    decode (some .nrom) 0x11800055#32 = .ok (.nromPrgW 0 0x55) ∧
    decode (some .nrom) 0x12800000#32 = .ok (.nromPeek 0x8000) ∧
    decode (some .nrom) 0x10600000#32 = .ok (.nromUnmappedR 0x6000) ∧
    decode (some .nrom) 0x11600012#32 = .ok (.nromUnmappedW 0x6000 0x12) := by decide
theorem test_decode_mmc1 :
    decode (some .mmc1) 0x10600100#32 = .ok (.mmc1PrgramR 1) ∧
    decode (some .mmc1) 0x11600142#32 = .ok (.mmc1PrgramW 1 0x42) ∧
    decode (some .mmc1) 0x11800080#32 = .ok (.mmc1WCtrl 0 0x80) ∧
    decode (some .mmc1) 0x11A00001#32 = .ok (.mmc1WChr0 0 1) ∧
    decode (some .mmc1) 0x11C00001#32 = .ok (.mmc1WChr1 0 1) ∧
    decode (some .mmc1) 0x11E00001#32 = .ok (.mmc1WPrg 0 1) ∧
    decode (some .mmc1) 0x10BFFF00#32 = .ok (.mmc1PrgLoR 0x3FFF) ∧
    decode (some .mmc1) 0x10C12300#32 = .ok (.mmc1PrgHiR 0x0123) ∧
    decode (some .mmc1) 0x10000000#32 = .ok (.mmc1ChrLoR 0) ∧
    decode (some .mmc1) 0x10100000#32 = .ok (.mmc1ChrHiR 0) ∧
    decode (some .mmc1) 0x11000011#32 = .ok (.mmc1ChrW 0 0x11) ∧
    decode (some .mmc1) 0x12FFFF00#32 = .ok (.mmc1Peek 0xFFFF) ∧
    decode (some .mmc1) 0x105FFF00#32 = .ok (.mmc1UnmappedR 0x5FFF) ∧
    decode (some .mmc1) 0x11200001#32 = .ok (.mmc1UnmappedW 0x2000 1) := by decide
theorem test_decode_uxrom :
    decode (some .uxrom) 0x11C00003#32 = .ok (.uxromWBank 0x4000 3) ∧
    decode (some .uxrom) 0x10800500#32 = .ok (.uxromPrgLoR 5) ∧
    decode (some .uxrom) 0x10FFFF00#32 = .ok (.uxromPrgHiR 0x3FFF) ∧
    decode (some .uxrom) 0x10000000#32 = .ok (.uxromChrR 0) ∧
    decode (some .uxrom) 0x1100003C#32 = .ok (.uxromChrW 0 0x3C) ∧
    decode (some .uxrom) 0x12000000#32 = .ok (.uxromPeek 0) ∧
    decode (some .uxrom) 0x10600000#32 = .ok (.uxromUnmappedR 0x6000) ∧
    decode (some .uxrom) 0x117FFF01#32 = .ok (.uxromUnmappedW 0x7FFF 1) := by decide
theorem test_decode_cnrom :
    decode (some .cnrom) 0x11FFFFFF#32 = .ok (.cnromWBank 0x7FFF 0xFF) ∧
    decode (some .cnrom) 0x10012300#32 = .ok (.cnromChrR 0x0123) ∧
    decode (some .cnrom) 0x11000277#32 = .ok (.cnromChrW 2 0x77) ∧
    decode (some .cnrom) 0x10812300#32 = .ok (.cnromPrgR 0x0123) ∧
    decode (some .cnrom) 0x12100000#32 = .ok (.cnromPeek 0x1000) ∧
    decode (some .cnrom) 0x10600000#32 = .ok (.cnromUnmappedR 0x6000) ∧
    decode (some .cnrom) 0x11600012#32 = .ok (.cnromUnmappedW 0x6000 0x12) := by decide
theorem test_decode_ppu_bus : ∀ slot,
    decode slot 0x20012300#32 = .ok (.pbusPtR 0x0123) ∧ decode slot 0x203F1000#32 = .ok (.pbusPalR 0x10) ∧
    decode slot 0x203EFF00#32 = .ok (.pbusNtR 0x1EFF) ∧ decode slot 0x211FFF01#32 = .ok (.pbusPtW 0x1FFF 1) ∧
    decode slot 0x213FFF0F#32 = .ok (.pbusPalW 0xFF 0x0F) ∧ decode slot 0x21210855#32 = .ok (.pbusNtW 0x0108 0x55) ∧
    decode slot 0x22000000#32 = .ok (.pbusPtP 0) ∧ decode slot 0x223F0000#32 = .ok (.pbusPalP 0) ∧
    decode slot 0x22200000#32 = .ok (.pbusNtP 0) := by
  intro slot; rcases slot with _ | v; · decide
  · cases v <;> decide
theorem test_decode_lifecycle : ∀ slot,
    decode slot 0x33000000#32 = .ok .ppuTick ∧ decode slot 0x34000000#32 = .ok .ppuPowerCycle ∧
    decode slot 0x35000000#32 = .ok .ppuReset ∧ decode slot 0x37000000#32 = .ok .ppuFramebuffer ∧
    decode slot 0x38000000#32 = .ok .ppuFrameCount ∧ decode slot 0x49000003#32 = .ok (.mapFactory 3) ∧
    decode slot 0x43000000#32 = .ok .mapTick ∧ decode slot 0x46000000#32 = .ok .mapMirroring := by
  intro slot; rcases slot with _ | v; · decide
  · cases v <;> decide
/-- 95_test_vectors.md 2.1: the words refused `BadWord`, with any mapper and with none. -/
theorem test_decode_bad_words : ∀ slot,
    decode slot 0x50000000#32 = .error .badWord ∧ decode slot 0x0A200000#32 = .error .badWord ∧
    decode slot 0x00200201#32 = .error .badWord ∧ decode slot 0x33000001#32 = .error .badWord ∧
    decode slot 0x20400000#32 = .error .badWord ∧ decode slot 0x13000000#32 = .error .badWord ∧
    decode slot 0x39000000#32 = .error .badWord := fun _ => ⟨rfl, rfl, rfl, rfl, rfl, rfl, rfl⟩
/-- R157: a cartridge word with no mapper; the same with an unused field set is a bad word first. -/
theorem test_decode_no_cartridge :
    decode none 0x10800000#32 = .error .noCartridge ∧ decode none 0x10800001#32 = .error .badWord := by decide

/-! ## The register window (95_test_vectors.md 2.7, 2.8) -/

theorem test_ppuctrl_read_is_latch :
    replyOf (exec (.ppuctrlR 5) (at_ { ppu0 with ctrl := 0x03, ioLatch := 0x90 })) = some (.byte 0x90) := by decide
theorem test_ppuctrl_write_sets_nametable_bits :
    after (exec (.ppuctrlW 0 3) (at_ ppu0)) (fun t => t.ppu.ctrl == 3 && t.ppu.t == 0x0C00 && t.ppu.ioLatch == 3) ∧
    after (exec (.ppuctrlW 0 0) (at_ { ppu0 with t := 0x7FFF })) (fun t => t.ppu.t == 0x73FF) := by decide
/-- 2.9, `NMI_ON_CTRL_ENABLE`: only with the parameter, and only when the bit turns on. -/
theorem test_ppuctrl_write_nmi :
    let s := at_ { ppu0 with vblank := true }
    let on := { s with cfg := { Config.defaults with nmiOnCtrlEnable := true } }
    after (exec (.ppuctrlW 0 0x80) on) (fun t => t.history == [.nmiSignal]) ∧
    after (exec (.ppuctrlW 0 0x80) s) (fun t => t.history == []) ∧
    after (exec (.ppuctrlW 0 0x80) { on with ppu := { on.ppu with ctrl := 0x80 } }) (fun t => t.history == []) := by
  decide
theorem test_ppumask_write : after (exec (.ppumaskW 0 0x1E) (at_ ppu0)) (fun t => t.ppu.mask == 0x1E) := by decide
def statusState : State := at_ { ppu0 with vblank := true, overflow := true, w := true, ioLatch := 0x1F }
theorem test_ppustatus_read :
    replyOf (exec (.ppustatusR 0) statusState) = some (.byte 0xBF) ∧
    after (exec (.ppustatusR 0) statusState) (fun t =>
      !t.ppu.vblank && t.ppu.overflow && !t.ppu.w && t.ppu.ioLatch == 0xBF) := by decide
theorem test_ppustatus_peek :
    exec (.ppustatusP 0) statusState = .next { statusState with reply := .byte 0xBF } := rfl
theorem test_ppustatus_write :
    after (exec (.ppustatusW 0 0xFF) (at_ ppu0)) (fun t => t.ppu == { ppu0 with ioLatch := 0xFF }) := by decide
theorem test_oamaddr_write : after (exec (.oamaddrW 0 0xFE) (at_ ppu0)) (fun t => t.ppu.oamAddr == 0xFE) := by decide
theorem test_oamdata_read_keeps_address :
    let s := { at_ { ppu0 with oamAddr := 0x10 } with oam := [(0x10, 0x7A)] }
    replyOf (exec (.oamdataR 0) s) = some (.byte 0x7A) ∧ after (exec (.oamdataR 0) s) (fun t => t.ppu.oamAddr == 0x10) := by
  decide
theorem test_oamdata_write_wraps :
    after (exec (.oamdataW 0 0x44) (at_ { ppu0 with oamAddr := 0xFF })) (fun t =>
      t.oam == [(0xFF, 0x44)] && t.ppu.oamAddr == 0) := by decide
theorem test_ppuscroll_first_write :
    after (exec (.ppuscrollW 0 0x7D) (at_ ppu0)) (fun t => t.ppu.t == 0x000F && t.ppu.x == 5 && t.ppu.w) := by decide
theorem test_ppuscroll_second_write :
    after (exec (.ppuscrollW 0 0x5E) (at_ { ppu0 with t := 0x000F, x := 5, w := true })) (fun t =>
      t.ppu.t == 0x616F && t.ppu.x == 5 && !t.ppu.w && t.ppu.v == 0) := by decide
theorem test_ppuaddr_first_write :
    after (exec (.ppuaddrW 0 0xFF) (at_ { ppu0 with t := 0x616F })) (fun t =>
      t.ppu.t == 0x3F6F && t.ppu.w && t.ppu.v == 0) := by decide
theorem test_ppuaddr_second_write :
    after (exec (.ppuaddrW 0 0xF0) (at_ { ppu0 with t := 0x3D6F, w := true })) (fun t =>
      t.ppu.t == 0x3DF0 && t.ppu.v == 0x3DF0 && !t.ppu.w) := by decide
def nametableState (v : BitVec 15) (hint : Hint) : State :=
  { at_ { ppu0 with v := v } (some (mapper .nrom 16384 8192 [] [] hint)) with ntram := [(0x108, 0x55)] }
theorem test_ppudata_read_mirrors :
    replyOf (exec (.ppudataR 0) (nametableState 0x2508 .horizontal)) = some (.byte 0x55) ∧
    replyOf (exec (.ppudataR 0) (nametableState 0x2908 .vertical)) = some (.byte 0x55) ∧
    after (exec (.ppudataR 0) (nametableState 0x2108 .horizontal)) (fun t =>
      t.ppu.v == 0x2109 && t.ppu.ioLatch == 0x55) := by decide
theorem test_ppudata_read_increment_wraps :
    after (exec (.ppudataR 0) (at_ { ppu0 with v := 0x7FFF })) (fun t => t.ppu.v == 0) ∧
    after (exec (.ppudataR 0) (at_ { ppu0 with v := 0x7FF0, ctrl := 4 })) (fun t => t.ppu.v == 0x0010) := by decide
theorem test_ppudata_read_buffered :
    let s := nametableState 0x2108 .horizontal
    let b := { s with cfg := { Config.defaults with ppudataReadBuffered := true } }
    replyOf (exec (.ppudataR 0) b) = some (.byte 0) ∧
    after (exec (.ppudataR 0) b) (fun t => t.ppu.readBuffer == 0x55 && t.ppu.v == 0x2109) := by decide
theorem test_ppudata_peek :
    let s := { at_ { ppu0 with v := 0x3F00 } with palette := [(0, 0x0F)] }
    exec (.ppudataP 0) s = .next { s with reply := .byte 0x0F } := rfl
theorem test_ppudata_write_sprite_backdrop :
    after (exec (.ppudataW 0 0x2A) (at_ { ppu0 with v := 0x3F10 })) (fun t =>
      t.palette == [(0, 0x2A)] && t.ppu.v == 0x3F11) := by decide
theorem test_ppudata_write_nametable :
    after (exec (.ppudataW 0 0x66) (nametableState 0x2508 .vertical)) (fun t => t.ntram.get 0x508 == 0x66) := by decide
theorem test_oamdma_read_is_latch : replyOf (exec .oamdmaR (at_ { ppu0 with ioLatch := 0x5A })) = some (.byte 0x5A) := by
  decide
theorem test_oamdma_refused_pages :
    refusedWith (exec (.oamdmaW 0x20) (at_ ppu0)) .dmaFromWindow ∧
    refusedWith (exec (.oamdmaW 0x3F) (at_ ppu0)) .dmaFromWindow ∧ ready (.oamdmaW 0x40) (at_ ppu0) ∧
    ready (.oamdmaW 0x1F) (at_ ppu0) := by decide
theorem test_oamdma_from_oam_addr :
    let s := { at_ { ppu0 with oamAddr := 0x10, ioLatch := 0x33 } with cpuMem := [(0x200, 0x0A), (0x2FF, 0xFF)] }
    after (exec (.oamdmaW 2) s) (fun t =>
      t.oam == [(0x0F, 0xFF), (0x10, 0x0A)] && t.ppu == s.ppu && t.history == [.dmaTransfer 2]) := by decide +kernel
theorem test_window_outside :
    let s := at_ { ppu0 with ioLatch := 0x12 }
    exec (.winOutsideW 0x4000 0xFF) s = .next s ∧ exec (.winOutsideR 0x4000) s = .next { s with reply := .byte 0x12 } :=
  ⟨rfl, rfl⟩

/-! ## The mapper (95_test_vectors.md 2.2 to 2.6) -/

/-- Metadata of the sizes given, its arrays of those lengths. -/
def meta_ (valid : Bool) (prg chr : Nat) (hint : Hint := .horizontal) : Metadata :=
  { mapperId := 0, valid := valid, prgSize := prg, chrSize := chr, prgBytes := ⟨prg, []⟩, chrBytes := ⟨chr, []⟩,
    hint := hint }
def loaded (md : Metadata) : State := { State.reset with cartridge := md }
theorem test_factory_ok :
    replyOf (exec (.mapFactory 0) (loaded (meta_ true 16384 8192))) = some (.factory .ok) ∧
    after (exec (.mapFactory 1) (loaded (meta_ true 131072 0))) (fun t =>
      t.mapper == some (mapper (.mmc1 ⟨0, 0, 0x0C, 0, 0, 0, []⟩) 131072 0 [] [])) ∧
    after (exec (.mapFactory 2) (loaded (meta_ true 262144 0))) (fun t =>
      t.mapper == some (mapper (.uxrom 0) 262144 0 [] [])) := by decide
theorem test_factory_failures :
    let outcome (id : Byte) (md : Metadata) := replyOf (exec (.mapFactory id) (loaded md))
    outcome 4 (meta_ true 16384 8192) = some (.factory .unsupported) ∧
    outcome 7 (meta_ true 16384 8192) = some (.factory .unsupported) ∧
    outcome 4 (meta_ false 16384 8192) = some (.factory .invalid) ∧
    outcome 0 (meta_ true 0 8192) = some (.factory .invalid) ∧
    outcome 0 (meta_ true 24576 8192) = some (.factory .invalid) ∧
    outcome 3 (meta_ true 16384 4096) = some (.factory .invalid) ∧
    outcome 0 { meta_ true 16384 8192 with prgBytes := ⟨16000, []⟩ } = some (.factory .invalid) := by decide
def nromState (prgSize chrSize : Nat) : State :=
  cart (mapper .nrom prgSize chrSize [(0x123, 0x11), (0x4123, 0x22)] [(0x10, 0x33)] .vertical)
theorem test_nrom_prg_mirror :
    replyOf (exec (.nromPrgR 0x4123) (nromState 16384 8192)) = some (.byte 0x11) ∧
    replyOf (exec (.nromPrgR 0x4123) (nromState 32768 8192)) = some (.byte 0x22) := by decide
theorem test_nrom_chr_write :
    after (exec (.nromChrW 0x10 0xFF) (nromState 16384 8192)) (fun t => t.mapper == (nromState 16384 8192).mapper) ∧
    after (exec (.nromChrW 0x10 0xFF) (nromState 16384 0)) (fun t =>
      t.mapper.map (fun m => m.chr) == some [(0x10, 0xFF)]) := by decide
theorem test_nrom_chr_read : replyOf (exec (.nromChrR 0x10) (nromState 16384 8192)) = some (.byte 0x33) := by decide
theorem test_nrom_ignored_writes :
    exec (.nromPrgW 0 0x55) (nromState 16384 8192) = .next (nromState 16384 8192) ∧
    exec (.nromUnmappedW 0x6000 0x12) (nromState 16384 8192) = .next (nromState 16384 8192) := ⟨rfl, rfl⟩
theorem test_nrom_unmapped_and_peek :
    replyOf (exec (.nromUnmappedR 0x6000) (nromState 16384 8192)) = some (.byte 0) ∧
    replyOf (exec (.nromPeek 0xC123) (nromState 16384 8192)) = some (.byte 0x11) := by decide
/-- Variant 1, every byte of program bank b equal to b and of 4 KB graphics bank b equal to b, at the bytes read. -/
def mmc1State (r : Mmc1) (chrSize : Nat := 32768) : State :=
  cart (mapper (.mmc1 r) 131072 chrSize [(0x10000, 4), (0x14000, 5), (0x1C000, 7)]
    [(0x2000, 2), (0x3000, 3), (0x6000, 6)] .horizontal)
def mmc1Regs (shift : BitVec 5) (count : Nat) (control : BitVec 5) : Mmc1 := ⟨shift, count, control, 3, 6, 5, []⟩
def serialOf (r : Result) : Option (BitVec 5 × Nat × BitVec 5 × BitVec 5) :=
  match r with
  | .next t =>
    match t.mapper with
    | some m =>
      match m.regs with
      | .mmc1 r => some (r.shift, r.count, r.control, r.prg)
      | .nrom => none
      | .uxrom _ => none
      | .cnrom _ => none
    | none => none
  | .fault _ => none
  | .refused _ => none
theorem test_mmc1_serial_shift :
    serialOf (exec (.mmc1WPrg 0 0x01) (mmc1State (mmc1Regs 0 0 0x0C))) = some (0x10, 1, 0x0C, 5) ∧
    serialOf (exec (.mmc1WChr1 0 0x7F) (mmc1State (mmc1Regs 0x08 2 0x0C))) = some (0x14, 3, 0x0C, 5) := by decide
theorem test_mmc1_serial_commit :
    serialOf (exec (.mmc1WPrg 0 0x00) (mmc1State (mmc1Regs 0x0A 4 0x0C))) = some (0, 0, 0x0C, 5) ∧
    serialOf (exec (.mmc1WCtrl 0 0x01) (mmc1State (mmc1Regs 0x04 4 0x0C))) = some (0, 0, 0x12, 5) := by decide
theorem test_mmc1_serial_commit_chr0 :
    after (exec (.mmc1WChr0 0 0) (mmc1State (mmc1Regs 0x0C 4 0x0C))) (fun t =>
      t.mapper == (mmc1State { mmc1Regs 0 0 0x0C with chr0 := 6 }).mapper) := by decide
theorem test_mmc1_serial_commit_chr1 :
    after (exec (.mmc1WChr1 0 1) (mmc1State (mmc1Regs 0x0C 4 0x0C))) (fun t =>
      t.mapper == (mmc1State { mmc1Regs 0 0 0x0C with chr1 := 0x16 }).mapper) := by decide
theorem test_mmc1_serial_reset :
    serialOf (exec (.mmc1WCtrl 0 0x80) (mmc1State (mmc1Regs 0x08 2 0x12))) = some (0, 0, 0x1E, 5) := by decide
theorem test_mmc1_prg_lo :
    let at_mode (c : BitVec 5) := replyOf (exec (.mmc1PrgLoR 0) (mmc1State (mmc1Regs 0 0 c)))
    at_mode 0x00 = some (.byte 4) ∧ at_mode 0x08 = some (.byte 0) ∧ at_mode 0x0C = some (.byte 5) := by decide
theorem test_mmc1_prg_hi :
    let at_mode (c : BitVec 5) := replyOf (exec (.mmc1PrgHiR 0) (mmc1State (mmc1Regs 0 0 c)))
    at_mode 0x04 = some (.byte 5) ∧ at_mode 0x08 = some (.byte 5) ∧ at_mode 0x0C = some (.byte 7) := by decide
theorem test_mmc1_chr_reads :
    let lo (c : BitVec 5) := replyOf (exec (.mmc1ChrLoR 0) (mmc1State (mmc1Regs 0 0 c)))
    let hi (c : BitVec 5) := replyOf (exec (.mmc1ChrHiR 0) (mmc1State (mmc1Regs 0 0 c)))
    lo 0x0C = some (.byte 2) ∧ hi 0x0C = some (.byte 3) ∧ lo 0x1C = some (.byte 3) ∧ hi 0x1C = some (.byte 6) := by decide
theorem test_mmc1_chr_ram_write :
    after (exec (.mmc1ChrW 0 0x11) (mmc1State (mmc1Regs 0 0 0x1C) 0)) (fun t =>
      t.mapper.map (fun m => m.chr.get 0x1000) == some 0x11) := by decide
theorem test_mmc1_prg_ram :
    after (exec (.mmc1PrgramW 1 0x42) (mmc1State (mmc1Regs 0 0 0x0C))) (fun t =>
      t.mapper == (mmc1State { mmc1Regs 0 0 0x0C with prgram := [(1, 0x42)] }).mapper) ∧
    replyOf (exec (.mmc1PrgramR 1) (mmc1State { mmc1Regs 0 0 0x0C with prgram := [(1, 0x42)] })) = some (.byte 0x42) := by
  decide
theorem test_mmc1_peek_and_unmapped :
    replyOf (exec (.mmc1Peek 0xC000) (mmc1State (mmc1Regs 0 0 0x0C))) = some (.byte 7) ∧
    replyOf (exec (.mmc1UnmappedR 0x5FFF) (mmc1State (mmc1Regs 0 0 0x0C))) = some (.byte 0) := by decide
def uxromState (bank : Byte) : State :=
  cart (mapper (.uxrom bank) 131072 0 [(0x8000, 2), (0xC005, 3), (0x1FFFF, 7)] [(0, 0x3C)] .vertical)
theorem test_uxrom_bank_write :
    after (exec (.uxromWBank 0x4000 3) (uxromState 0)) (fun t => t.mapper == (uxromState 3).mapper) := by decide
theorem test_uxrom_prg_reads :
    replyOf (exec (.uxromPrgLoR 0) (uxromState 10)) = some (.byte 2) ∧
    replyOf (exec (.uxromPrgLoR 5) (uxromState 3)) = some (.byte 3) ∧
    replyOf (exec (.uxromPrgHiR 0x3FFF) (uxromState 10)) = some (.byte 7) := by decide
theorem test_uxrom_six_banks :
    let s := cart (mapper (.uxrom 7) 98304 0 [(16384, 9)] [])
    replyOf (exec (.uxromPrgLoR 0) s) = some (.byte 9) := by decide
theorem test_uxrom_chr :
    replyOf (exec (.uxromChrR 0) (uxromState 0)) = some (.byte 0x3C) ∧
    after (exec (.uxromChrW 0 0x3D) (uxromState 0)) (fun t => t.mapper.map (fun m => m.chr) == some [(0, 0x3D)]) := by
  decide
def cnromState (bank : Byte) (chrSize : Nat) : State :=
  cart (mapper (.cnrom bank) 16384 chrSize [(0x3FFC, 0x44)] [(2, 0x22), (0x4000, 0x33), (0x4123, 0x23)] .horizontal)
theorem test_cnrom_bank_write :
    after (exec (.cnromWBank 0x1ABC 6) (cnromState 0 32768)) (fun t => t.mapper == (cnromState 6 32768).mapper) := by decide
theorem test_cnrom_chr_read_modulo :
    replyOf (exec (.cnromChrR 0x0123) (cnromState 6 32768)) = some (.byte 0x23) ∧
    replyOf (exec (.cnromChrR 0) (cnromState 5 24576)) = some (.byte 0x33) := by decide
theorem test_cnrom_chr_ram_write :
    after (exec (.cnromChrW 2 0x77) (cnromState 7 0)) (fun t => t.mapper.map (fun m => m.chr.get 2) == some 0x77) := by
  decide
theorem test_cnrom_prg_duplicated :
    replyOf (exec (.cnromPrgR 0x7FFC) (cnromState 0 8192)) = some (.byte 0x44) ∧
    replyOf (exec (.cnromPrgR 0x3FFC) (cnromState 0 8192)) = some (.byte 0x44) := by decide
/-- Four program banks, under either reading of the $C000 window: bank 1 by R95, the last one by R39 (log 30). -/
def cnromWide (high : HighWindow) : State :=
  { cart (mapper (.cnrom 0) 65536 8192 [(0x4000, 1), (0x8000, 2), (0xC000, 3)] []) with
    cfg := { Config.defaults with cnromHighWindow := high } }
theorem test_cnrom_high_window :
    replyOf (exec (.cnromPrgR 0x4000) (cnromWide .bankOne)) = some (.byte 1) ∧
    replyOf (exec (.cnromPrgR 0x4000) (cnromWide .lastBank)) = some (.byte 3) := by decide
theorem test_cnrom_unmapped_write_keeps_bank :
    exec (.cnromUnmappedW 0x7FFF 1) (cnromState 2 8192) = .next (cnromState 2 8192) := rfl
theorem test_mirroring :
    replyOf (exec .mapMirroring (nromState 16384 8192)) = some (.topology .vertical) ∧
    replyOf (exec .mapMirroring (mmc1State (mmc1Regs 0 0 0x0C))) = some (.topology .singleLower) ∧
    replyOf (exec .mapMirroring (mmc1State (mmc1Regs 0 0 0x12))) = some (.topology .vertical) ∧
    refusedWith (exec .mapMirroring State.reset) .noCartridge := by decide
theorem test_map_tick : exec .mapTick (mmc1State (mmc1Regs 4 3 0x0C)) = .next (mmc1State (mmc1Regs 4 3 0x0C)) := rfl
theorem test_ppu_bus_palette :
    let s := { State.reset with palette := [(4, 0x19)] }
    replyOf (exec (.pbusPalR 0x34) s) = some (.byte 0x19) ∧
    after (exec (.pbusPalW 0x10 0x2A) s) (fun t => t.palette == [(0, 0x2A), (4, 0x19)]) := by decide
theorem test_ppu_bus_nametable :
    replyOf (exec (.pbusNtR 0x1108) (nametableState 0 .horizontal)) = some (.byte 0x55) ∧
    refusedWith (exec (.pbusNtR 0) State.reset) .noCartridge := by decide
theorem test_ppu_bus_pattern :
    replyOf (exec (.pbusPtR 0x10) (nromState 16384 8192)) = some (.byte 0x33) ∧
    after (exec (.pbusPtW 0x10 0xFF) (nromState 16384 0)) (fun t =>
      t.mapper.map (fun m => m.chr) == some [(0x10, 0xFF)]) := by decide

/-! ## Lifecycle (95_test_vectors.md 2.11) -/

def usedPpu : Ppu := { ppu0 with vblank := true, v := 0x2345, ctrl := 0x80, ioLatch := 0x77, frameCount := 5, oddFrame := true }
theorem test_ppu_reset :
    after (exec .ppuReset (at_ usedPpu)) (fun t => t.ppu == { usedPpu with ctrl := 0, oddFrame := false }) := by decide
theorem test_ppu_power_cycle : after (exec .ppuPowerCycle (at_ usedPpu)) (fun t => t.ppu == ppu0) := by decide
theorem test_ppu_frame_count : replyOf (exec .ppuFrameCount (at_ usedPpu)) = some (.frames 5) := by decide
theorem test_ppu_framebuffer : replyOf (exec .ppuFramebuffer (at_ usedPpu)) = some (.picture []) := by decide

/-! ## Ticks (95_test_vectors.md 2.9, 2.10) -/

def pos (line dot : Nat) (p : Ppu := ppu0) : Ppu := { p with scanline := line, dot := dot }
theorem test_tick_positions :
    after (exec .ppuTick (at_ ppu0)) (fun t => t.ppu == pos 0 1) ∧
    after (exec .ppuTick (at_ (pos 0 340))) (fun t => t.ppu == pos 1 0) ∧
    after (exec .ppuTick (at_ (pos 261 340))) (fun t => t.ppu == { ppu0 with frameCount := 1, oddFrame := true }) := by
  decide
def zeroCart : Option Mapper := some (mapper .nrom 16384 8192 [] [])
theorem test_tick_odd_frame_skip :
    let odd := pos 261 339 { ppu0 with oddFrame := true, mask := 8 }
    let noSkip := { at_ odd zeroCart with cfg := { Config.defaults with oddFrameSkip := false } }
    after (exec .ppuTick (at_ odd zeroCart)) (fun t => (t.ppu.scanline, t.ppu.dot, t.ppu.frameCount, t.ppu.oddFrame) == (0, 0, 1, false)) ∧
    after (exec .ppuTick noSkip) (fun t => (t.ppu.scanline, t.ppu.dot, t.ppu.frameCount) == (261, 340, 0)) ∧
    after (exec .ppuTick (at_ { odd with oddFrame := false } zeroCart)) (fun t => t.ppu.dot == 340) ∧
    after (exec .ppuTick (at_ { odd with mask := 0 } zeroCart)) (fun t => t.ppu.dot == 340) := by decide
theorem test_tick_vblank_and_nmi :
    after (exec .ppuTick (at_ (pos 241 1 { ppu0 with ctrl := 0x80 }))) (fun t => t.ppu.vblank && t.history == [.nmiSignal]) ∧
    after (exec .ppuTick (at_ (pos 241 1))) (fun t => t.ppu.vblank && t.history == []) := by decide
theorem test_tick_no_mapper :
    refusedWith (exec .ppuTick (at_ (pos 0 1 { ppu0 with mask := 8 }))) .noCartridge ∧
    after (exec .ppuTick (at_ (pos 0 1))) (fun t => t.ppu.dot == 2) := by decide
theorem test_fetch_addresses :
    ntFetchAddr 0 = 0x2000 ∧ atFetchAddr 0x42 = 0x23C0 ∧ atShiftOf 0x42 = 6 ∧ ntFetchAddr 0x2C7F = 0x2C7F ∧
    atFetchAddr 0x2C7F = 0x2FC7 ∧ atShiftOf 0x2C7F = 6 ∧ ptFetchAddr 0x10 0x41 0x3000 = 0x1413 ∧
    ptFetchAddr 0x10 0xFF 0x7000 + 8 = 0x1FFF := by decide
theorem test_scroll_increments :
    incX 0x001F = 0x0400 ∧ incX 0x041F = 0 ∧ incX 0x0005 = 0x0006 ∧ incY 0 = 0x1000 ∧ incY 0x7000 = 0x0020 ∧
    incY 0x73A0 = 0x0800 ∧ incY 0x7BA0 = 0 ∧ incY 0x73E0 = 0 ∧ incY 0x7BC0 = 0x0BE0 ∧
    copyX 0x7FFF 0x1234 = 0x163F ∧ copyY 0x7FFF 0x1234 = 0x7BF4 := by decide
/-- Eleven sprites at Y = 10, the others at Y = $FF, line 12 (R144's example). -/
def elevenSprites : Memory := (List.range 64).map (fun k => (4 * k, if k < 11 then 10#8 else 0xFF#8))
def evalState (oam : Memory) (line : Nat) (ctrl : Byte) : State :=
  { at_ (pos line 256 { ppu0 with mask := 0x10, ctrl := ctrl }) with oam := oam }
theorem test_sprite_evaluation_eleven :
    after (exec .ppuTick (evalState elevenSprites 12 0)) (fun t =>
      t.ppu.soamCount == 8 && t.ppu.spr0Next && t.ppu.overflow && t.soam == (List.range 8).map (fun n => (4 * n, 10#8))) := by
  decide +kernel
theorem test_sprite_range :
    spriteInRange 8 12 5 ∧ ¬ spriteInRange 8 13 5 ∧ spriteInRange 16 25 10 ∧ ¬ spriteInRange 16 26 10 ∧
    ¬ spriteInRange 16 239 0xFF := by decide
theorem test_sprite_fetch_addresses :
    spriteFetchAddr 0 3 (spriteRow 8 12 10 0) = 0x0032 ∧ spriteFetchAddr 0 3 (spriteRow 8 12 10 0x80) = 0x0035 ∧
    spriteFetchAddr 8 3 (spriteRow 8 12 10 0) = 0x1032 ∧ spriteFetchAddr 0x20 3 9 = 0x1031 ∧
    spriteFetchAddr 0x20 2 (spriteRow 16 12 12 0x80) = 0x0037 := by decide
def bgPpu (lo hi ahi : BitVec 16) (fx : BitVec 3) : Ppu :=
  { ppu0 with mask := 0x08, x := fx, bg := { ppu0.bg with bgShiftLo := lo, bgShiftHi := hi, atShiftHi := ahi } }
theorem test_background_pixel :
    bgPixel (bgPpu 0x8000 0 0 0) 9 = (1, 0) ∧ bgPixel (bgPpu 0x4000 0x4000 0x4000 1) 9 = (3, 2) ∧
    bgPixel (bgPpu 0x8000 0 0 0) 7 = (0, 0) := by decide
theorem test_sprite_pixel :
    unitPixel ⟨250, 0, 0x01, 0⟩ 255 = 0 ∧ unitPixel ⟨250, 0, 0x04, 0⟩ 255 = 1 ∧ unitPixel ⟨250, 0x40, 0x04, 0⟩ 252 = 1 ∧
    firstOpaque 255 0 [⟨250, 0, 0x01, 0⟩, ⟨250, 0, 0, 0x04⟩] = some ⟨2, 1, 0⟩ := by decide
theorem test_composition :
    compose 0 0 none = 0x3F00 ∧ compose 0 1 (some ⟨3, 0, 2⟩) = 0x3F1B ∧ compose 2 1 none = 0x3F06 ∧
    compose 2 1 (some ⟨3, 0, 2⟩) = 0x3F1B ∧ compose 2 1 (some ⟨3, 0, 0x22⟩) = 0x3F06 := by decide
theorem test_colour_output :
    colourOut 0x1E 0x0F = 0x00F ∧ colourOut 0xFF 0x21 = 0x1E0 ∧ colourOut 0xE1 0x2D = 0x1E0 ∧ colourOut 0 0xFF = 0x03F := by
  decide
/-- Program 5, step 10: the tick at (1, 1), unit 0 and the background both opaque in the column. -/
def hitPpu : Ppu :=
  pos 1 1 { ppu0 with mask := 0x1E, spr0Line := true, unitCount := 1, units := ppu0.units.set 0 ⟨0, 0, 0xFF, 0⟩,
                      bg := { ppu0.bg with bgShiftLo := 0xFFFF } }
theorem test_sprite0_hit :
    let s := { at_ hitPpu zeroCart with palette := [(0, 0x0F), (1, 0x30), (0x11, 0x16)] }
    after (exec .ppuTick s) (fun t => t.ppu.s0hit && Framebuffer.get t.ppu.framebuffer 1 0 == 0x16) ∧
    after (exec .ppuTick { s with ppu := { s.ppu with mask := 0x18 } }) (fun t => !t.ppu.s0hit) := by decide

/-! ## A step and a word placed where the next step takes it from -/

theorem test_step_runs_the_pending_word :
    after (step (State.reset.withFetchWord 32 0x01200090)) (fun t => t.ppu.ctrl == 0x90 && t.inbox == []) ∧
    after (step (State.reset.withFetchWord 32 0x10C12300)) (fun t => t.reply == .byte 0) ∧
    refusedWith (step (State.reset.withFetchWord 32 0x50000000)) .badWord := by decide
/-- A program from reset: the host hands over metadata with `MAP.NEW` and the slot is filled. -/
theorem test_step_map_new :
    let s := { State.reset with inbox := [{ word := 0x49000003, cartridge := some (meta_ true 16384 8192) }] }
    after (step s) (fun t => t.slot == some .cnrom && t.reply == .factory .ok) := by decide

/-! ## A state that meets the hypotheses of each statement -/

theorem exists_next {r : Result} (h : after r (fun _ => true) = true) : ∃ t, r = .next t := by
  cases r with
  | next t => exact ⟨t, rfl⟩
  | fault f => cases h
  | refused f => cases h

theorem exists_after {r : Result} {f : State → Bool} (h : after r f = true) : ∃ t, r = .next t ∧ f t = true := by
  cases r with
  | next t => exact ⟨t, rfl, h⟩
  | fault f => cases h
  | refused f => cases h

/-- Rendering on, a mapper in the slot, at a position. -/
def lit (line dot : Nat) : State := at_ { ppu0 with mask := 0x18, scanline := line, dot := dot } zeroCart

theorem witness_DecodeOfEncode : (Instr.pbusNtW 0x1EFF 0xFF).wf = true ∧ (Instr.pbusNtW 0x1EFF 0xFF).rowIn none ∧
    (Instr.mmc1UnmappedR 0x5FFF).wf = true ∧ (Instr.mmc1UnmappedR 0x5FFF).rowIn (some .mmc1) := by decide
theorem witness_EncodeOfDecode : ∃ slot w i, decode slot w = .ok i := ⟨some .mmc1, 0x10C12300#32, _, rfl⟩
def pending (w : Word) : State := { State.reset with inbox := [{ word := w }] }
theorem witness_StepRunsDecodedInstruction :
    (∃ (s : State) (tx : Transaction) (rest : List Transaction) (i : Instr), s.inbox = tx :: rest ∧ decode s.slot tx.word = .ok i) ∧ State.reset.inbox = [] :=
  ⟨⟨pending 0x01200190#32, _, _, _, rfl, rfl⟩, rfl⟩
theorem witness_StepRefusalsExactly :
    step (pending 0x50000000#32) = .refused .badWord ∧ step (pending 0x10800000#32) = .refused .noCartridge ∧
    step (pending 0x46000000#32) = .refused .noCartridge ∧ step (pending 0x20000000#32) = .refused .noCartridge ∧
    step (pending 0x01401420#32) = .refused .dmaFromWindow ∧ step (pending 0x0140143F#32) = .refused .dmaFromWindow :=
  ⟨rfl, rfl, rfl, rfl, rfl, rfl⟩
theorem witness_ConstructionHasInvariant :
    Memory.array 65536 [(0xFFFF, 1#8)] = true ∧ Memory.array 256 [(255, 1#8)] = true ∧
    Memory.array 32 [(31, 1#8)] = true ∧ Memory.array 2048 [(2047, 1#8)] = true := by decide
theorem witness_StepKeepsInvariant : ∃ s t, State.inv s = true ∧ step s = .next t :=
  ⟨pending 0x33000000#32, _, by decide, rfl⟩
theorem witness_TickAdvancesPosition :
    (∃ t, exec .ppuTick (at_ (pos 261 339 { ppu0 with oddFrame := true, mask := 8 }) zeroCart) = .next t) ∧
    (∃ t, exec .ppuTick (at_ (pos 261 340)) = .next t) ∧ (∃ t, exec .ppuTick (at_ (pos 0 340)) = .next t) ∧
    (∃ t, exec .ppuTick (at_ (pos 261 339)) = .next t) :=
  ⟨exists_next (by decide), exists_next (by decide), exists_next (by decide), exists_next (by decide)⟩

/-- With rendering disabled any number of ticks completes from reset: `n` ticks are a session that meets the hypotheses of
the statements about a frame. -/
theorem frame_session (p : Ppu) (h : renderingEnabled p.mask = false) (n : Nat) (x : Instr) (hx : x ≠ .ppuTick) :
    ∃ t, execAll (List.replicate n .ppuTick) (at_ p) = .next t ∧ (List.replicate n Instr.ppuTick).count .ppuTick = n ∧
      ∀ i ∈ List.replicate n Instr.ppuTick, i ≠ x := by
  obtain ⟨t, ht, -⟩ := ticks_disabled (s := at_ p) h n
  refine ⟨t, ht, List.count_replicate_self, fun i hi => ?_⟩
  rw [List.eq_of_mem_replicate hi]
  exact hx.symm
theorem witness_PositionCountsTicks :
    ∃ is t, ppu0.scanline = 0 ∧ ppu0.dot = 0 ∧ (∀ i ∈ is, i ≠ .ppuPowerCycle ∧ i ≠ .ppuReset) ∧
      execAll is (at_ ppu0) = .next t ∧ is.count .ppuTick = 89340 := by
  obtain ⟨t, ht, hc, h1⟩ := frame_session ppu0 rfl 89340 .ppuPowerCycle (by decide)
  obtain ⟨-, -, -, h2⟩ := frame_session ppu0 rfl 89340 .ppuReset (by decide)
  exact ⟨_, t, rfl, rfl, fun i hi => ⟨h1 i hi, h2 i hi⟩, ht, hc⟩
theorem witness_FrameLength :
    (lit 0 0).ppu.scanline = 0 ∧ (lit 0 0).ppu.dot = 0 ∧ (lit 0 0).mapper.isSome = true ∧
    ∃ t, ticks 89341 (at_ ppu0 zeroCart) = .next t ∧ (at_ ppu0 zeroCart).mapper.isSome = true := by
  obtain ⟨t, ht, -⟩ := ticks_disabled (s := at_ ppu0 zeroCart) rfl 89341
  exact ⟨rfl, rfl, rfl, t, ht, rfl⟩
theorem witness_VblankFlagOverAFrame (n : Nat) :
    ∃ is t, ppu0.scanline = 0 ∧ ppu0.dot = 0 ∧ ppu0.vblank = false ∧
      (∀ i ∈ is, i ≠ .ppuPowerCycle ∧ i ≠ .ppuReset ∧ ∀ k, i ≠ .ppustatusR k) ∧
      execAll is (at_ ppu0) = .next t ∧ is.count .ppuTick = n := by
  obtain ⟨t, ht, hc, h1⟩ := frame_session ppu0 rfl n .ppuPowerCycle (by decide)
  refine ⟨_, t, rfl, rfl, rfl, fun i hi => ?_, ht, hc⟩
  rw [List.eq_of_mem_replicate hi]
  exact ⟨by decide, by decide, fun k => by simp⟩
theorem witness_NmiOncePerFrame (ctrl : Byte) :
    ∃ before rest a b t, (∀ i ∈ before ++ rest, i ≠ .ppuPowerCycle ∧ i ≠ .ppuReset) ∧
      before.count .ppuTick = 82182 ∧ rest.count .ppuTick = 7159 ∧
      execAll before (at_ { ppu0 with ctrl := ctrl }) = .next a ∧ exec .ppuTick a = .next b ∧
      execAll rest b = .next t := by
  obtain ⟨a, ha, ma⟩ := ticks_disabled (s := at_ { ppu0 with ctrl := ctrl })
    (show renderingEnabled ppu0.mask = false from rfl) 82182
  have da : renderingEnabled a.ppu.mask = false := by
    rw [ma]
    exact (show renderingEnabled ppu0.mask = false from rfl)
  obtain ⟨b, hb, mb⟩ := exec_ppuTick_disabled da
  obtain ⟨t, ht, -⟩ := ticks_disabled (s := b) (by rw [mb]; exact da) 7159
  refine ⟨_, _, a, b, t, fun i hi => ?_, List.count_replicate_self, List.count_replicate_self, ha, hb, ht⟩
  rcases List.mem_append.1 hi with h | h <;> rw [List.eq_of_mem_replicate h] <;> exact ⟨by decide, by decide⟩
theorem witness_FlagEventsAndIdleTicks :
    (at_ (pos 241 1)).ppu.scanline = 241 ∧ (lit 261 1).mapper.isSome = true ∧ (at_ (pos 261 1)).ppu.mask.getLsbD 3 = false ∧
    (240 ≤ (lit 240 340).ppu.scanline ∧ (lit 240 340).ppu.scanline ≤ 260) ∧ (lit 260 2).ppu.scanline ≤ 260 ∧
    (lit 239 0).ppu.dot = 0 := by decide
/-- Each of the six clauses has a step that meets its hypotheses. -/
theorem witness_StatusFlagWriters :
    (∃ t, exec .ppuTick (at_ (pos 241 1)) = .next t ∧ t.ppu.vblank = true) ∧
    (∃ t, exec (.ppustatusR 0) statusState = .next t ∧ !t.ppu.vblank) ∧
    (∃ t, exec .ppuTick (at_ hitPpu zeroCart) = .next t ∧ t.ppu.s0hit = true) ∧
    (∃ t, exec .ppuTick (at_ (pos 261 1 { ppu0 with s0hit := true })) = .next t ∧ !t.ppu.s0hit) ∧
    (∃ t, exec .ppuTick (at_ (pos 0 256 { ppu0 with mask := 8 }) zeroCart) = .next t ∧ t.ppu.overflow = true) ∧
    (∃ t, exec .ppuPowerCycle statusState = .next t ∧ !t.ppu.overflow) :=
  ⟨exists_after (by decide), exists_after (by decide), exists_after (by decide), exists_after (by decide),
   exists_after (by decide +kernel), exists_after (by decide)⟩
theorem witness_TickFrame :
    (∃ t, exec .ppuTick (lit 0 64) = .next t ∧ (t.soam != []) = true) ∧
    (∃ t, exec .ppuTick (at_ (pos 241 1 { ppu0 with ctrl := 0x80 })) = .next t ∧ (t.history != []) = true) ∧
    (∃ t, exec .ppuTick { lit 0 256 with oam := [] } = .next t ∧ (t.ppu.soamCount == 8) = true) ∧
    (∃ t, exec .ppuTick { lit 0 257 with ppu := { (lit 0 257).ppu with soamCount := 3 } } = .next t ∧
      (t.ppu.unitCount == 3) = true) ∧
    (∃ t, exec .ppuTick { lit 0 258 with ppu := { (lit 0 258).ppu with unitCount := 3 } } = .next t ∧
      (t.ppu.unitCount == 3) = true) ∧
    (∃ t, exec .ppuTick { lit 261 257 with ppu := { (lit 261 257).ppu with unitCount := 3 } } = .next t ∧
      (t.ppu.unitCount == 0) = true) :=
  ⟨exists_after (by decide), exists_after (by decide), exists_after (by decide +kernel), exists_after (by decide),
   exists_after (by decide), exists_after (by decide)⟩
theorem witness_OutputsAndPosition :
    (∃ t, exec .ppuTick (at_ (pos 241 1 { ppu0 with ctrl := 0x80 })) = .next t) ∧
    (∃ t, exec (.ppuctrlW 0 0x80) { at_ { ppu0 with vblank := true } with
      cfg := { Config.defaults with nmiOnCtrlEnable := true } } = .next t) ∧
    (∃ t, exec (.oamdmaW 2) State.reset = .next t) ∧ (∃ t, exec (.mapFactory 3) (loaded (meta_ true 16384 8192)) = .next t) :=
  ⟨exists_next (by decide), exists_next (by decide), exists_next (by decide +kernel), exists_next (by decide)⟩
theorem witness_RenderingDisabledTick :
    (pos 0 1).mask.getLsbD 3 = false ∧ (pos 239 256 { ppu0 with mask := 0xE1 }).mask.getLsbD 4 = false ∧
    (pos 239 257).scanline < 240 ∧ ¬((pos 239 256).scanline = 261 ∧ (pos 239 256).dot = 1) := by decide
theorem witness_ScrollScheduleOfATick :
    (∃ t, exec .ppuTick (lit 0 256) = .next t) ∧ (∃ t, exec .ppuTick (lit 261 257) = .next t) ∧
    (∃ t, exec .ppuTick (lit 0 8) = .next t) ∧ (∃ t, exec .ppuTick (lit 261 280) = .next t) ∧
    (∃ t, exec .ppuTick (lit 261 304) = .next t) ∧ (∃ t, exec .ppuTick (lit 240 8) = .next t) ∧
    (lit 0 8).ppu.mask.getLsbD 3 = true :=
  ⟨exists_next (by decide +kernel), exists_next (by decide), exists_next (by decide), exists_next (by decide),
   exists_next (by decide), exists_next (by decide), by decide⟩
theorem witness_PreRenderLineLoadsScroll :
    (lit 261 0).ppu.scanline = 261 ∧ (lit 261 0).ppu.dot = 0 ∧ (lit 261 0).mapper.isSome = true ∧
    (lit 261 0).ppu.mask.getLsbD 4 = true := by decide
theorem witness_BackgroundFetchesOfATick :
    (lit 239 1).mapper.isSome = true ∧ (lit 239 1).ppu.mask.getLsbD 3 = true ∧ (lit 239 1).ppu.scanline < 240 ∧
    (lit 261 339).ppu.scanline = 261 ∧ (lit 261 339).ppu.dot = 339 := by decide
theorem witness_BackgroundShiftersOfATick :
    (∃ t, exec .ppuTick (lit 0 2) = .next t) ∧ (∃ t, exec .ppuTick (lit 261 337) = .next t) ∧
    (∃ t, exec .ppuTick (lit 0 9) = .next t) ∧ (∃ t, exec .ppuTick (lit 0 257) = .next t) ∧
    (∃ t, exec .ppuTick (lit 0 1) = .next t) ∧ (lit 0 2).ppu.mask.getLsbD 3 = true :=
  ⟨exists_next (by decide), exists_next (by decide), exists_next (by decide), exists_next (by decide),
   exists_next (by decide), by decide⟩
theorem witness_SecondaryOamClearAndSpriteEmpty :
    (lit 239 64).ppu.scanline < 240 ∧ (lit 239 64).ppu.mask.getLsbD 3 = true ∧
    (∃ t, exec .ppuTick (lit 261 257) = .next t) ∧ (∃ t, exec .ppuTick (at_ (pos 239 257)) = .next t) ∧
    (pos 239 257).mask.getLsbD 3 = false ∧ ppu0.unitCount = 0 :=
  ⟨by decide, by decide, exists_next (by decide), exists_next (by decide), by decide, by decide⟩
theorem witness_SpriteEvaluation :
    (evalState elevenSprites 12 0).ppu.scanline < 240 ∧ (evalState elevenSprites 12 0).ppu.dot = 256 ∧
    (evalState elevenSprites 12 0).ppu.mask.getLsbD 4 = true := by decide
theorem witness_SpriteUnitsLoad :
    let s := { lit 239 257 with ppu := { (lit 239 257).ppu with soamCount := 8 } }
    (s.ppu.scanline < 240 ∧ s.ppu.dot = 257 ∧ s.mapper.isSome = true ∧ s.ppu.soamCount ≤ 8 ∧
      s.ppu.mask.getLsbD 3 = true) ∧
    (let e := { lit 239 257 with mapper := none }; e.mapper.isSome = false ∧ e.ppu.soamCount = 0 ∧ e.ppu.mask.getLsbD 3 = true) ∧
    (pos 239 257).mask.getLsbD 3 = false ∧ (pos 239 257).mask.getLsbD 4 = false := by decide
theorem witness_PixelOutput :
    (∃ t, exec .ppuTick (lit 239 1) = .next t) ∧ (∃ t, exec .ppuTick (at_ (pos 0 256)) = .next t) ∧
    (∃ t, exec .ppuTick (lit 0 257) = .next t) :=
  ⟨exists_next (by decide), exists_next (by decide), exists_next (by decide)⟩
theorem witness_PixelSelection :
    (bgPpu 0x8000 0 0 0).mask.getLsbD 1 = false ∧ ¬((bgPpu 0x8000 0 0 0).mask.getLsbD 3 = false ∨ 8 < 8) ∧
    sprPixel hitPpu 0 = some ⟨1, 0, 0⟩ := by decide
theorem witness_Sprite0HitExactly :
    (∃ t, exec .ppuTick (at_ hitPpu zeroCart) = .next t ∧ t.ppu.s0hit = true) ∧ hitPpu.s0hit = false ∧
    (∃ t, exec (.ppustatusR 0) (at_ { ppu0 with s0hit := true }) = .next t ∧ t.ppu.s0hit = true) :=
  ⟨exists_after (by decide), by decide, exists_after (by decide)⟩
theorem witness_SolidFrame :
    ∃ m bank, (cart (mapper (.cnrom 0) 16384 8192 [] [])).mapper = some m ∧ m.regs = .cnrom bank ∧ m.chr = [] ∧
      State.reset.ppu.scanline = 0 ∧ State.reset.ppu.dot = 0 ∧ State.reset.ppu.bg.bgShiftLo = 0 ∧
      State.reset.ppu.bg.bgShiftHi = 0 ∧ State.reset.ppu.bg.ptLoLatch = 0 ∧ State.reset.ppu.bg.ptHiLatch = 0 ∧
      State.reset.ppu.unitCount = 0 := ⟨_, _, rfl, rfl, rfl, rfl, rfl, rfl, rfl, rfl, rfl, rfl⟩
theorem witness_PeekReturnsWhatReadReturns :
    (windowPeek? (.ppudataR 0) = some (.ppudataP 0) ∧ ∃ t, exec (.ppudataR 0) (nametableState 0x2108 .vertical) = .next t) ∧
    (windowPeek? (.oamdataR 0) = some (.oamdataP 0) ∧ ∃ t, exec (.oamdataR 0) State.reset = .next t) :=
  ⟨⟨rfl, exists_next (by decide)⟩, ⟨rfl, exists_next (by decide)⟩⟩
theorem witness_ScrollPair : State.reset.ppu.w = false ∧ statusState.ppu.w = true := by decide
theorem witness_AddressPair : State.reset.ppu.w = false ∧ statusState.ppu.w = true := by decide
theorem witness_DataPortRead :
    (nametableState 0x2108 .horizontal).cfg.ppudataReadBuffered = false ∧
    busRead (nametableState 0x2108 .horizontal) (BitVec.ofNat 14 0x2108) = some 0x55 ∧
    (nametableState 0 .horizontal).ppu.w = false ∧ (0x2108#14).toNat = (0x21#8).toNat % 64 * 256 + (0x08#8).toNat ∧
    (0x3FFF#14).toNat = (0xFF#8).toNat % 64 * 256 + (0xFF#8).toNat ∧
    busRead (nametableState 0 .horizontal) 0x3FFF#14 = some 0 := by decide
theorem witness_DataPortBufferedReadAndPeek :
    let s (v : BitVec 15) : State :=
      { nametableState v .horizontal with cfg := { Config.defaults with ppudataReadBuffered := true } }
    ((s 0x3EFF).cfg.ppudataReadBuffered = true ∧ (s 0x3EFF).ppu.v.toNat % 16384 < 0x3F00 ∧
      busRead (s 0x3EFF) (BitVec.ofNat 14 0x3EFF) = some 0) ∧
    (0x3F00 ≤ (s 0x3F00).ppu.v.toNat % 16384 ∧ busRead (s 0x3F00) (BitVec.ofNat 14 0x3F00) = some 0 ∧
      busRead (s 0x3F00) (BitVec.ofNat 14 (0x3F00 - 0x1000)) = some 0) := by decide
theorem witness_DataPortWrite :
    (nametableState 0x1FFF .vertical).mapper.isSome = true ∧ (nametableState 0x3EFF .vertical).mapper.isSome = true ∧
    0x3F00 ≤ (at_ { ppu0 with v := 0x7F00 }).ppu.v.toNat % 16384 := by decide
theorem witness_OamDma :
    (0x20 ≤ (0x20#8).toNat ∧ (0x20#8).toNat ≤ 0x3F) ∧ (0x20 ≤ (0x3F#8).toNat ∧ (0x3F#8).toNat ≤ 0x3F) ∧
    ¬(0x20 ≤ (0x1F#8).toNat ∧ (0x1F#8).toNat ≤ 0x3F) ∧ ¬(0x20 ≤ (0x40#8).toNat ∧ (0x40#8).toNat ≤ 0x3F) := by decide
/-- The host's answer below $4020, and at $4020 and above what the mapper reads (R171). -/
theorem witness_CpuMemReadAnswers :
    let s := { uxromState 0 with cpuMem := [(0x401F, 7#8), (0x8000, 9#8)] }
    (0x401F#16).toNat < 0x4020 ∧ Memory.array 65536 s.cpuMem = true ∧ (0x401F, 7#8) ∈ s.cpuMem ∧
    cpuMemRead s 0x401F#16 = 7#8 ∧ cpuMemRead { s with mapper := none } 0x8000#16 = 9#8 ∧
    ∃ m, s.mapper = some m ∧ 0x4020 ≤ (0x4020#16).toNat ∧ cpuMemRead s 0x8000#16 = m.read s.cfg 0x8000#16 :=
  ⟨by decide, by decide, by decide, by decide, by decide, _, rfl, by decide, by decide⟩
theorem witness_PpuBusAccess :
    ∃ m, (nametableState 0 .vertical).mapper = some m ∧ (0x1EFF#13).toNat < 0x1F00 := ⟨_, rfl, by decide⟩
theorem witness_BusIndices :
    0x2000 ≤ (0x2000#14).toNat ∧ (0x3EFF#14).toNat ≤ 0x3EFF ∧ 0x3F00 ≤ (0x3F00#14).toNat ∧ palIndex 0x3F10#14 = 0 ∧
    palIndex 0x3FFF#14 = 0x1F := by decide
theorem witness_CartridgePeekIsRead :
    ∃ m, (uxromState 0).mapper = some m ∧ m.variant.maps 0x7FFF#16 = false ∧ m.variant.maps 0x8000#16 = true :=
  ⟨_, rfl, rfl, rfl⟩
theorem witness_NromRows : ∃ m, (nromState 32768 0).mapper = some m ∧ m.regs = .nrom := ⟨_, rfl, rfl⟩
theorem witness_UxromRows : ∃ m bank, (uxromState 3).mapper = some m ∧ m.regs = .uxrom bank := ⟨_, _, rfl, rfl⟩
theorem witness_CnromRows : ∃ m bank, (cnromState 5 24576).mapper = some m ∧ m.regs = .cnrom bank ∧
    (cnromState 5 24576).cfg.cnromHighWindow = .bankOne ∧ m.prgSize / 16384 = 1 := ⟨_, _, rfl, rfl, rfl, rfl⟩
theorem witness_CnromSourceProperties :
    (∃ m bank, (cnromState 5 24576).mapper = some m ∧ m.regs = .cnrom bank) ∧
    (∃ m bank, (cnromWide .lastBank).mapper = some m ∧ m.regs = .cnrom bank ∧
      (cnromWide .lastBank).cfg.cnromHighWindow = .lastBank) ∧
    ∀ i ∈ [Instr.cnromWBank 0 1, .cnromWBank 0x4000 2, .cnromWBank 0x7FFF 0xFF], ∃ a d, i = .cnromWBank a d := by
  refine ⟨⟨_, _, rfl, rfl⟩, ⟨_, _, rfl, rfl, rfl⟩, fun i hi => ?_⟩
  simp only [List.mem_cons, List.not_mem_nil, or_false] at hi
  rcases hi with rfl | rfl | rfl <;> exact ⟨_, _, rfl⟩
theorem witness_Mmc1Rows : ∃ m r, (mmc1State (mmc1Regs 0 0 0x0C)).mapper = some m ∧ m.regs = .mmc1 r := ⟨_, _, rfl, rfl⟩
theorem witness_Mmc1SerialPort :
    (∃ m r, (mmc1State (mmc1Regs 0x0A 4 0x0C)).mapper = some m ∧ m.regs = .mmc1 r ∧ r.count = 4) ∧
    (∃ m r, (mmc1State (mmc1Regs 0x0A 3 0x0C)).mapper = some m ∧ m.regs = .mmc1 r ∧ r.count ≠ 4) ∧
    (0x80#8).getLsbD 7 = true ∧ (0x7F#8).getLsbD 7 = false :=
  ⟨⟨_, _, rfl, rfl, rfl⟩, ⟨_, _, rfl, rfl, by decide⟩, by decide, by decide⟩
theorem witness_FiveWritesLoadRegister :
    (∃ m r, (mmc1State (mmc1Regs 0x1F 0 0x0C)).mapper = some m ∧ m.regs = .mmc1 r ∧ r.count = 0) ∧
    ∀ d ∈ [0x7F#8, 0x7E#8, 0x01#8, 0x00#8, 0x00#8], d.getLsbD 7 = false := ⟨⟨_, _, rfl, rfl, rfl⟩, by decide⟩
theorem witness_MirroringAndMapperTick :
    (∃ m r, (mmc1State (mmc1Regs 0 0 0x0C)).mapper = some m ∧ m.regs = .mmc1 r ∧ m.hint ≠ .fourScreen) ∧
    (∃ m, (cart (mapper (.mmc1 (mmc1Regs 0 0 0)) 16384 0 [] [] .fourScreen)).mapper = some m ∧ m.hint = .fourScreen) ∧
    (∃ m, (nromState 16384 0).mapper = some m ∧ (∀ r, m.regs ≠ .mmc1 r) ∧ m.hint = .vertical) :=
  ⟨⟨_, _, rfl, rfl, by decide⟩, ⟨_, rfl, rfl⟩, ⟨_, rfl, fun r => by simp [mapper], rfl⟩⟩
/-- Valid metadata and each way to be invalid. -/
theorem witness_FactoryOutcomes :
    let ok (md : Metadata) := md.valid = true ∧ md.prgSize ≠ 0 ∧ md.prgSize % 16384 = 0 ∧ md.chrSize % 8192 = 0 ∧
      md.prgBytes.len = md.prgSize ∧ md.chrBytes.len = md.chrSize
    ok (meta_ true 16384 0) ∧ ¬ ok (meta_ false 16384 0) ∧ ¬ ok (meta_ true 0 0) ∧ ¬ ok (meta_ true 24576 0) ∧
    ¬ ok (meta_ true 16384 4096) ∧ ¬ ok { meta_ true 16384 0 with prgBytes := ⟨16000, []⟩ } ∧
    4 ≤ (4#8).toNat ∧ (3#8).toNat < 4 := by decide
theorem witness_MapperChangesOnlyByWrites :
    (∃ t, exec (.cnromWBank 0 1) (cnromState 0 8192) = .next t) ∧ (∃ t, exec (.ppuaddrW 0 1) (cnromState 0 8192) = .next t) ∧
    (∃ t, exec (.ppumaskW 0 1) State.reset = .next t) ∧ State.reset.mapper = none :=
  ⟨exists_next (by decide), exists_next (by decide), exists_next (by decide), rfl⟩

end Sys2Proof.Tests
end

section
/-! PROOFS. The PPU bus and its indices (20_memory.md): the rules of a bus access per range, the mapper's `CartRead` and
`CartWrite` as the cartridge rows, and the two statements settled from them. -/

namespace Sys2Proof.Machine

/-! ## The cartridge ranges of an address (R39) -/

theorem extract_eq_iff {n lo len : Nat} {a : BitVec n} {x : BitVec len} :
    a.extractLsb' lo len = x ↔ a.toNat / 2 ^ lo % 2 ^ len = x.toNat := by
  rw [← BitVec.toNat_inj, extract_toNat]

theorem chrRange_iff {a : Addr} : a.extractLsb' 13 3 = 0#3 ↔ a.toNat < 0x2000 := by
  rw [extract_eq_iff, BitVec.toNat_ofNat]; omega

theorem prgRange_iff {a : Addr} : a.extractLsb' 15 1 = 1#1 ↔ 0x8000 ≤ a.toNat := by
  rw [extract_eq_iff, BitVec.toNat_ofNat]; omega

/-- PRG-RAM's range, among the addresses below the program windows. -/
theorem prgRamRange_iff {a : Addr} (h : ¬ 0x8000 ≤ a.toNat) : a.extractLsb' 13 3 = 3#3 ↔ 0x6000 ≤ a.toNat := by
  rw [extract_eq_iff, BitVec.toNat_ofNat]; omega

theorem chrLoRange_iff {a : Addr} (h : a.toNat < 0x2000) : a.extractLsb' 12 1 = 0#1 ↔ a.toNat < 0x1000 := by
  rw [extract_eq_iff, BitVec.toNat_ofNat]; omega

theorem prgLoRange_iff {a : Addr} (h : 0x8000 ≤ a.toNat) : a.extractLsb' 14 1 = 0#1 ↔ a.toNat < 0xC000 := by
  rw [extract_eq_iff, BitVec.toNat_ofNat]; omega

/-- The ranges every variant's rows and rules are cut into: the graphics window, the program windows, and the addresses
between them. What relates row and rule in each range relates the decoded row and the rule. -/
theorem cartRanges {β : Type} {R : Instr → β → Prop} {a : Addr} {i j k : Instr} {x y z : β}
    (chr : a.toNat < 0x2000 → R i x) (prg : 0x8000 ≤ a.toNat → R j y)
    (between : ¬ a.toNat < 0x2000 → ¬ 0x8000 ≤ a.toNat → R k z) :
    R (if a.extractLsb' 13 3 = 0#3 then i else if a.extractLsb' 15 1 = 1#1 then j else k)
      (if a.toNat < 0x2000 then x else if 0x8000 ≤ a.toNat then y else z) := by
  simp only [chrRange_iff, prgRange_iff]
  by_cases hchr : a.toNat < 0x2000
  · rw [if_pos hchr, if_pos hchr]; exact chr hchr
  rw [if_neg hchr, if_neg hchr]
  by_cases hprg : 0x8000 ≤ a.toNat
  · rw [if_pos hprg, if_pos hprg]; exact prg hprg
  · rw [if_neg hprg, if_neg hprg]; exact between hchr hprg

/-! ## The address of a row's operand is the address decoded -/

theorem chrAddr_extract {a : Addr} (h : a.toNat < 0x2000) : chrAddr (a.extractLsb' 0 13) = a := by
  apply BitVec.eq_of_toNat_eq
  rw [chrAddr_toNat, extract_toNat]; omega

theorem chrLoAddr_extract {a : Addr} (h : a.toNat < 0x1000) : chrLoAddr (a.extractLsb' 0 12) = a := by
  apply BitVec.eq_of_toNat_eq
  rw [chrLoAddr_toNat, extract_toNat]; omega

theorem chrHiAddr_extract {a : Addr} (lo : 0x1000 ≤ a.toNat) (hi : a.toNat < 0x2000) :
    chrHiAddr (a.extractLsb' 0 12) = a := by
  apply BitVec.eq_of_toNat_eq
  rw [chrHiAddr_toNat, extract_toNat]; omega

theorem prgAddr_extract {a : Addr} (h : 0x8000 ≤ a.toNat) : prgAddr (a.extractLsb' 0 15) = a := by
  apply BitVec.eq_of_toNat_eq
  rw [prgAddr_toNat, extract_toNat]; omega

theorem prgLoAddr_extract {a : Addr} (lo : 0x8000 ≤ a.toNat) (hi : a.toNat < 0xC000) :
    prgLoAddr (a.extractLsb' 0 14) = a := by
  apply BitVec.eq_of_toNat_eq
  rw [prgLoAddr_toNat, extract_toNat]; omega

theorem prgHiAddr_extract {a : Addr} (h : 0xC000 ≤ a.toNat) : prgHiAddr (a.extractLsb' 0 14) = a := by
  apply BitVec.eq_of_toNat_eq
  rw [prgHiAddr_toNat, extract_toNat]; omega

theorem prgRamOffset_extract {a : Addr} (lo : 0x6000 ≤ a.toNat) (hi : ¬ 0x8000 ≤ a.toNat) :
    (a.extractLsb' 0 13).toNat = a.toNat - 0x6000 := by
  rw [extract_toNat]; omega

/-! ## Operations of the variant in the slot -/

section variants
variable {s : State} {m : Mapper} (hm : s.mapper = some m)
include hm

theorem withNrom_of_regs (hr : m.regs = .nrom) (f : Mapper → Result) : withNrom s f = f m := by
  simp only [withNrom, withMapper, hm, hr]

theorem withMmc1_of_regs {r : Mmc1} (hr : m.regs = .mmc1 r) (f : Mapper → Mmc1 → Result) :
    withMmc1 s f = f m r := by
  simp only [withMmc1, withMapper, hm, hr]

theorem withUxrom_of_regs {b : Byte} (hr : m.regs = .uxrom b) (f : Mapper → Byte → Result) :
    withUxrom s f = f m b := by
  simp only [withUxrom, withMapper, hm, hr]

theorem withCnrom_of_regs {b : Byte} (hr : m.regs = .cnrom b) (f : Mapper → Byte → Result) :
    withCnrom s f = f m b := by
  simp only [withCnrom, withMapper, hm, hr]

theorem State.setMapper_self : s.setMapper (some m) = s := by
  rw [← hm]; rfl

/-! ## `CartRead`: the read row of each variant answers its read rule (R63) -/

theorem exec_decodeCartR_nrom (hr : m.regs = .nrom) (a : Addr) :
    exec (decodeCartR .nrom a) s = answer s (m.nromRead s.cfg a) := by
  refine cartRanges (R := fun i b => exec i s = answer s b) (fun hchr => ?chr) (fun hprg => ?prg) (fun _ _ => ?unmapped)
  case chr => exact (withNrom_of_regs hm hr _).trans (by rw [chrAddr_extract hchr])
  case prg => exact (withNrom_of_regs hm hr _).trans (by rw [prgAddr_extract hprg])
  case unmapped => exact withNrom_of_regs hm hr _

theorem exec_decodeCartR_mmc1 {r : Mmc1} (hr : m.regs = .mmc1 r) (a : Addr) :
    exec (decodeCartR .mmc1 a) s = answer s (m.mmc1Read r s.cfg a) := by
  refine cartRanges (R := fun i b => exec i s = answer s b) (fun hchr => ?chr) (fun hprg => ?prg) (fun _ hprg => ?below)
  case chr =>
    simp only [chrLoRange_iff hchr]
    split
    · next hlo => exact (withMmc1_of_regs hm hr _).trans (by rw [chrLoAddr_extract hlo])
    · next hhi => exact (withMmc1_of_regs hm hr _).trans (by rw [chrHiAddr_extract (Nat.not_lt.1 hhi) hchr])
  case prg =>
    simp only [prgLoRange_iff hprg]
    split
    · next hlo => exact (withMmc1_of_regs hm hr _).trans (by rw [prgLoAddr_extract hprg hlo])
    · next hhi => exact (withMmc1_of_regs hm hr _).trans (by rw [prgHiAddr_extract (Nat.not_lt.1 hhi)])
  case below =>
    simp only [prgRamRange_iff hprg]
    split
    · next hram => exact (withMmc1_of_regs hm hr _).trans (by rw [prgRamOffset_extract hram hprg])
    · exact withMmc1_of_regs hm hr _

theorem exec_decodeCartR_uxrom {b : Byte} (hr : m.regs = .uxrom b) (a : Addr) :
    exec (decodeCartR .uxrom a) s = answer s (m.uxromRead b s.cfg a) := by
  refine cartRanges (R := fun i b => exec i s = answer s b) (fun hchr => ?chr) (fun hprg => ?prg) (fun _ _ => ?unmapped)
  case chr => exact (withUxrom_of_regs hm hr _).trans (by rw [chrAddr_extract hchr])
  case prg =>
    simp only [prgLoRange_iff hprg]
    split
    · next hlo => exact (withUxrom_of_regs hm hr _).trans (by rw [prgLoAddr_extract hprg hlo])
    · next hhi => exact (withUxrom_of_regs hm hr _).trans (by rw [prgHiAddr_extract (Nat.not_lt.1 hhi)])
  case unmapped => exact withUxrom_of_regs hm hr _

theorem exec_decodeCartR_cnrom {b : Byte} (hr : m.regs = .cnrom b) (a : Addr) :
    exec (decodeCartR .cnrom a) s = answer s (m.cnromRead b s.cfg a) := by
  refine cartRanges (R := fun i b => exec i s = answer s b) (fun hchr => ?chr) (fun hprg => ?prg) (fun _ _ => ?unmapped)
  case chr => exact (withCnrom_of_regs hm hr _).trans (by rw [chrAddr_extract hchr])
  case prg => exact (withCnrom_of_regs hm hr _).trans (by rw [prgAddr_extract hprg])
  case unmapped => exact withCnrom_of_regs hm hr _

/-- The read row of the variant in the slot is `CartRead`, at every address (R63). -/
theorem exec_decodeCartR (a : Addr) : exec (decodeCartR m.variant a) s = answer s (m.read s.cfg a) := by
  unfold Mapper.variant Mapper.read
  cases hr : m.regs with
  | nrom => exact exec_decodeCartR_nrom hm hr a
  | mmc1 r => exact exec_decodeCartR_mmc1 hm hr a
  | uxrom b => exact exec_decodeCartR_uxrom hm hr a
  | cnrom b => exact exec_decodeCartR_cnrom hm hr a

/-! ## `CartWrite`: the write row of each variant is its write rule (R65) -/

theorem exec_decodeCartW_nrom (hr : m.regs = .nrom) (a : Addr) (d : Byte) :
    exec (decodeCartW .nrom a d) s = done (s.setMapper (some (m.nromWrite a d))) := by
  have hrule : m.nromWrite a d =
      if a.toNat < 0x2000 then m.chrWrite a.toNat d else if 0x8000 ≤ a.toNat then m else m := by
    rw [ite_self]; rfl
  rw [hrule]
  refine cartRanges (R := fun i m' => exec i s = done (s.setMapper (some m')))
    (fun hchr => ?chr) (fun _ => ?prg) (fun _ _ => ?unmapped)
  case chr => exact (withNrom_of_regs hm hr _).trans (by rw [chrAddr_extract hchr])
  case prg => rw [State.setMapper_self hm]; exact withNrom_of_regs hm hr _
  case unmapped => rw [State.setMapper_self hm]; exact withNrom_of_regs hm hr _

theorem exec_decodeCartW_mmc1 {r : Mmc1} (hr : m.regs = .mmc1 r) (a : Addr) (d : Byte) :
    exec (decodeCartW .mmc1 a d) s = done (s.setMapper (some (m.mmc1Write r a d))) := by
  refine cartRanges (R := fun i m' => exec i s = done (s.setMapper (some m')))
    (fun hchr => ?chr) (fun _ => ?serial) (fun _ hprg => ?below)
  case chr => exact (withMmc1_of_regs hm hr _).trans (by rw [chrAddr_extract hchr])
  case serial =>
    -- Each quarter's row is the serial port at that quarter's number (R83).
    refine Eq.trans ?_ (show serialPortWrite (a.extractLsb' 13 2) d s = _ from withMmc1_of_regs hm hr _)
    generalize a.extractLsb' 13 2 = sel
    split
    · rfl
    · rfl
    · rfl
    · have hlast : sel = 3#2 := by revert sel; decide
      rw [hlast]; rfl
  case below =>
    simp only [prgRamRange_iff hprg]
    split
    · next hram => exact (withMmc1_of_regs hm hr _).trans (by rw [prgRamOffset_extract hram hprg]; rfl)
    · rw [State.setMapper_self hm]; exact withMmc1_of_regs hm hr _

theorem exec_decodeCartW_uxrom {b : Byte} (hr : m.regs = .uxrom b) (a : Addr) (d : Byte) :
    exec (decodeCartW .uxrom a d) s = done (s.setMapper (some (m.uxromWrite a d))) := by
  refine cartRanges (R := fun i m' => exec i s = done (s.setMapper (some m')))
    (fun hchr => ?chr) (fun _ => ?bank) (fun _ _ => ?unmapped)
  case chr => exact (withUxrom_of_regs hm hr _).trans (by rw [chrAddr_extract hchr])
  case bank => exact withUxrom_of_regs hm hr _
  case unmapped => rw [State.setMapper_self hm]; exact withUxrom_of_regs hm hr _

theorem exec_decodeCartW_cnrom {b : Byte} (hr : m.regs = .cnrom b) (a : Addr) (d : Byte) :
    exec (decodeCartW .cnrom a d) s = done (s.setMapper (some (m.cnromWrite b a d))) := by
  refine cartRanges (R := fun i m' => exec i s = done (s.setMapper (some m')))
    (fun hchr => ?chr) (fun _ => ?bank) (fun _ _ => ?unmapped)
  case chr => exact (withCnrom_of_regs hm hr _).trans (by rw [chrAddr_extract hchr])
  case bank => exact withCnrom_of_regs hm hr _
  case unmapped => rw [State.setMapper_self hm]; exact withCnrom_of_regs hm hr _

/-- The write row of the variant in the slot is `CartWrite`, at every address (R65). -/
theorem exec_decodeCartW (a : Addr) (d : Byte) :
    exec (decodeCartW m.variant a d) s = done (s.setMapper (some (m.write a d))) := by
  unfold Mapper.variant Mapper.write
  cases hr : m.regs with
  | nrom => exact exec_decodeCartW_nrom hm hr a d
  | mmc1 r => exact exec_decodeCartW_mmc1 hm hr a d
  | uxrom b => exact exec_decodeCartW_uxrom hm hr a d
  | cnrom b => exact exec_decodeCartW_cnrom hm hr a d

/-! ## A bus write in each range (R41) -/

theorem busWrite_pattern {a : BusAddr} (ha : a.toNat ≤ 0x1FFF) (d : Byte) :
    busWrite s a d = some (s.setMapper (some (m.write (a.setWidth 16) d))) := by
  simp only [busWrite, if_pos ha, hm, Option.map_some]

theorem busWrite_nametable {a : BusAddr} (lo : 0x2000 ≤ a.toNat) (hi : a.toNat ≤ 0x3EFF) (d : Byte) :
    busWrite s a d = some (s.setNtram (s.ntram.set (ntIndex a m.mirroring) d)) := by
  have hpt : ¬ a.toNat ≤ 0x1FFF := by omega
  simp only [busWrite, if_neg hpt, if_pos hi, hm, Option.map_some]

end variants

theorem busWrite_palette (s : State) {a : BusAddr} (lo : 0x3F00 ≤ a.toNat) (d : Byte) :
    busWrite s a d = some (s.setPalette (s.palette.set (palIndex a) d)) := by
  have hpt : ¬ a.toNat ≤ 0x1FFF := by omega
  have hnt : ¬ a.toNat ≤ 0x3EFF := by omega
  simp only [busWrite, if_neg hpt, if_neg hnt]

/-! ## The `PBUS` rows: what they answer and store -/

theorem busAnswer_of_busRead {s : State} {a : BusAddr} {b : Byte} (h : busRead s a = some b) :
    busAnswer s a = answer s b := by
  rw [busAnswer, h, orNoCartridge]

theorem busStore_of_busWrite {s t : State} {a : BusAddr} {d : Byte} (h : busWrite s a d = some t) :
    busStore s a d = done t := by
  rw [busStore, h, orNoCartridge]

/-- A pattern-table address is the same address on the cartridge bus. -/
theorem ptBusAddr_setWidth (o : BitVec 13) : (ptBusAddr o).setWidth 16 = chrAddr o := by
  apply BitVec.eq_of_toNat_eq
  rw [BitVec.toNat_setWidth, ptBusAddr_toNat, chrAddr_toNat]; omega

theorem ntBusAddr_eq_ofNat (o : BitVec 13) : ntBusAddr o = BitVec.ofNat 14 (0x2000 + o.toNat) := by
  apply BitVec.eq_of_toNat_eq
  rw [ntBusAddr_toNat, BitVec.toNat_ofNat]; omega

theorem palBusAddr_eq_ofNat (o : BitVec 8) : palBusAddr o = BitVec.ofNat 14 (0x3F00 + o.toNat) := by
  apply BitVec.eq_of_toNat_eq
  rw [palBusAddr_toNat, BitVec.toNat_ofNat]; omega

section pattern
variable {s : State} {m : Mapper} (hm : s.mapper = some m) (o : BitVec 13)
include hm

theorem busAnswer_pattern : busAnswer s (ptBusAddr o) = answer s (m.read s.cfg (chrAddr o)) := by
  have hpt : (ptBusAddr o).toNat ≤ 0x1FFF := by rw [ptBusAddr_toNat]; omega
  rw [busAnswer_of_busRead (busRead_pattern hm hpt), ptBusAddr_setWidth]

theorem busStore_pattern (d : Byte) :
    busStore s (ptBusAddr o) d = done (s.setMapper (some (m.write (chrAddr o) d))) := by
  have hpt : (ptBusAddr o).toNat ≤ 0x1FFF := by rw [ptBusAddr_toNat]; omega
  rw [busStore_of_busWrite (busWrite_pattern hm hpt d), ptBusAddr_setWidth]

end pattern

section nametable
variable {s : State} {m : Mapper} (hm : s.mapper = some m) {o : BitVec 13} (ho : o.toNat < 0x1F00)
include hm ho

theorem busAnswer_nametable :
    busAnswer s (ntBusAddr o) = answer s (s.ntram.get (ntIndex (ntBusAddr o) m.mirroring)) := by
  have hnt := ntBusAddr_toNat o
  exact busAnswer_of_busRead (busRead_nametable hm (by omega) (by omega))

theorem busStore_nametable (d : Byte) :
    busStore s (ntBusAddr o) d = done (s.setNtram (s.ntram.set (ntIndex (ntBusAddr o) m.mirroring) d)) := by
  have hnt := ntBusAddr_toNat o
  exact busStore_of_busWrite (busWrite_nametable hm (by omega) (by omega) d)

end nametable

section palette
variable (s : State) (o : BitVec 8)

theorem busAnswer_palette : busAnswer s (palBusAddr o) = answer s (s.palette.get (palIndex (palBusAddr o))) := by
  have hpal := palBusAddr_toNat o
  exact busAnswer_of_busRead (busRead_palette s (by omega))

theorem busStore_palette (d : Byte) :
    busStore s (palBusAddr o) d = done (s.setPalette (s.palette.set (palIndex (palBusAddr o)) d)) := by
  have hpal := palBusAddr_toNat o
  exact busStore_of_busWrite (busWrite_palette s (by omega) d)

end palette

/-- Settles O47: each range's access is `busAnswer` or `busStore` at the row's address; in the pattern range those are
`CartRead` and `CartWrite`, which the rows of the variant in the slot are at every address. -/
theorem ppuBusAccess : Obligations.PpuBusAccess := by
  unfold Obligations.PpuBusAccess
  intro s d
  refine ⟨fun m o hm => ?pattern, fun m o hm ho => ?nametable, fun o => ?palette⟩
  case pattern =>
    have hread := busAnswer_pattern hm o
    have hwrite := busStore_pattern hm o d
    exact ⟨hread, hread, hwrite, hread.trans (exec_decodeCartR hm _).symm,
      hwrite.trans (exec_decodeCartW hm _ d).symm⟩
  case nametable =>
    rw [← ntBusAddr_eq_ofNat]
    have hread := busAnswer_nametable hm ho
    exact ⟨hread, hread, _, busStore_nametable hm ho d, fun j => Memory.get_set _ _ j d⟩
  case palette =>
    rw [← palBusAddr_eq_ofNat]
    have hread := busAnswer_palette s o
    exact ⟨hread, hread, _, busStore_palette s o d, fun j => Memory.get_set _ _ j d⟩

/-! ## The indices (R42, R43) -/

/-- Settles O48: the table and offset of R42 are bits 11:10 and 9:0 of the address, and the four sprite backdrop entries
are the multiples of four from $10 on (R43). -/
theorem busIndices : Obligations.BusIndices := by
  unfold Obligations.BusIndices
  refine ⟨fun a lo _ => ?nametable, fun a _ => ?palette⟩
  case nametable =>
    have htable : (a.toNat - 0x2000) % 0x1000 / 0x400 = a.toNat / 1024 % 4 := by omega
    have hoff : (a.toNat - 0x2000) % 0x1000 % 0x400 = a.toNat % 1024 := by omega
    simp only [ntIndex, htable, hoff, zero_mul, zero_add, one_mul, true_and]
    omega
  case palette =>
    have hbackdrop :
        (a.toNat % 0x20 = 0x10 ∨ a.toNat % 0x20 = 0x14 ∨ a.toNat % 0x20 = 0x18 ∨ a.toNat % 0x20 = 0x1C) ↔
        16 ≤ a.toNat % 32 ∧ a.toNat % 4 = 0 := by omega
    simp only [palIndex, hbackdrop]

end Sys2Proof.Machine
end

section
/-! PROOFS. The decoder against the opcode table (30_encoding.md): the pairs of target and operation that some row has,
the table's rows of one pair, and, pair by pair, that the decoder's row is the first of them the word matches; with it
the legal words and the words of the common operations. -/

namespace Sys2Proof
open Sys2Proof.Machine Sys2Proof.Laws

/-! ## The legal pairs of target and operation (R55) -/

/-- The pairs `T`, `O` of R55's table. -/
inductive LegalPair : BitVec 4 → BitVec 4 → Prop
  | winR : LegalPair 0#4 0#4
  | winW : LegalPair 0#4 1#4
  | winP : LegalPair 0#4 2#4
  | cartR : LegalPair 1#4 0#4
  | cartW : LegalPair 1#4 1#4
  | cartP : LegalPair 1#4 2#4
  | busR : LegalPair 2#4 0#4
  | busW : LegalPair 2#4 1#4
  | busP : LegalPair 2#4 2#4
  | ppuTick : LegalPair 3#4 3#4
  | ppuPowerCycle : LegalPair 3#4 4#4
  | ppuReset : LegalPair 3#4 5#4
  | ppuFramebuffer : LegalPair 3#4 7#4
  | ppuFrameCount : LegalPair 3#4 8#4
  | mapTick : LegalPair 4#4 3#4
  | mapMirroring : LegalPair 4#4 6#4
  | mapFactory : LegalPair 4#4 9#4

theorem legalPair_iff {t o : BitVec 4} :
    LegalPair t o ↔
      (t.toNat ≤ 2 ∧ o.toNat ≤ 2) ∨
      (t.toNat = 3 ∧ (o.toNat = 3 ∨ o.toNat = 4 ∨ o.toNat = 5 ∨ o.toNat = 7 ∨ o.toNat = 8)) ∨
      (t.toNat = 4 ∧ (o.toNat = 3 ∨ o.toNat = 6 ∨ o.toNat = 9)) := by
  constructor
  case mp => rintro ⟨⟩ <;> decide
  case mpr =>
    rintro (⟨ht, ho⟩ | ⟨ht, ho⟩ | ⟨ht, ho⟩)
    case inl =>
      have ht' : t = 0#4 ∨ t = 1#4 ∨ t = 2#4 := by bv_omega
      have ho' : o = 0#4 ∨ o = 1#4 ∨ o = 2#4 := by bv_omega
      rcases ht' with rfl | rfl | rfl <;> rcases ho' with rfl | rfl | rfl <;> constructor
    case inr.inl =>
      obtain rfl : t = 3#4 := by bv_omega
      have ho' : o = 3#4 ∨ o = 4#4 ∨ o = 5#4 ∨ o = 7#4 ∨ o = 8#4 := by bv_omega
      rcases ho' with rfl | rfl | rfl | rfl | rfl <;> constructor
    case inr.inr =>
      obtain rfl : t = 4#4 := by bv_omega
      have ho' : o = 3#4 ∨ o = 6#4 ∨ o = 9#4 := by bv_omega
      rcases ho' with rfl | rfl | rfl <;> constructor

theorem decodeFields_of_not_legal {t o : BitVec 4} (h : ¬ LegalPair t o) (slot : Option Variant) (a : Addr)
    (d : Byte) : decodeFields slot t o a d = .error .badWord := by
  unfold decodeFields
  split
  case h_1 =>
    split
    · exact absurd .winR h
    · exact absurd .winW h
    · exact absurd .winP h
    · rfl
  case h_2 =>
    split
    · exact absurd .cartR h
    · exact absurd .cartW h
    · exact absurd .cartP h
    · rfl
  case h_3 =>
    split
    · exact absurd .busR h
    · exact absurd .busW h
    · exact absurd .busP h
    · rfl
  case h_4 =>
    split
    · exact absurd .ppuTick h
    · exact absurd .ppuPowerCycle h
    · exact absurd .ppuReset h
    · exact absurd .ppuFramebuffer h
    · exact absurd .ppuFrameCount h
    · rfl
  case h_5 =>
    split
    · exact absurd .mapTick h
    · exact absurd .mapMirroring h
    · exact absurd .mapFactory h
    · rfl
  case h_6 => rfl

/-! ## The opcode table, field by field -/

/-- The rows of target `t` and operation `o` that a session with variant `v` can select, in table order. -/
def rowsOf (v : Variant) (t o : BitVec 4) : List OpcodeRow :=
  opcodeTable.filter fun r =>
    tField r.pattern == t && oField r.pattern == o && (r.variant == none || r.variant == some v)

/-- `A` passes the row's test. -/
def OpcodeRow.covers (a : Addr) (r : OpcodeRow) : Bool := a &&& aField r.mask == aField r.pattern

/-- `A` and `D` pass the row's tests. -/
def OpcodeRow.admits (a : Addr) (d : Byte) (r : OpcodeRow) : Bool :=
  r.covers a && d &&& dField r.mask == dField r.pattern

/-- Every row tests the whole of `T` and `O`. -/
theorem opcodeTable_masks : ∀ r ∈ opcodeTable, tField r.mask = 0xF#4 ∧ oField r.mask = 0xF#4 := by decide

theorem opcodeTable_legal : ∀ r ∈ opcodeTable, LegalPair (tField r.pattern) (oField r.pattern) := by
  simp only [legalPair_iff]
  decide

theorem mkWord_eq_iff {t o : BitVec 4} {a : Addr} {d : Byte} {w : Word} :
    mkWord t o a d = w ↔ tField w = t ∧ oField w = o ∧ a = aField w ∧ d = dField w := by
  constructor
  · rintro rfl
    simp
  · rintro ⟨rfl, rfl, rfl, rfl⟩
    exact mkWord_fields w

theorem mkWord_and_mask {r : OpcodeRow} (hr : r ∈ opcodeTable) (t o : BitVec 4) (a : Addr) (d : Byte) :
    mkWord t o a d &&& r.mask = mkWord t o (a &&& aField r.mask) (d &&& dField r.mask) := by
  obtain ⟨ht, ho⟩ := opcodeTable_masks r hr
  have hmask := mkWord_fields r.mask
  rw [ht, ho] at hmask
  rw [← row_of_fields rfl rfl rfl, hmask]

/-- Selecting by the whole word is selecting by `A` and `D` among the rows of its `T` and `O`. -/
theorem selectRow_mkWord (v : Variant) (t o : BitVec 4) (a : Addr) (d : Byte) :
    selectRow v (mkWord t o a d) = (rowsOf v t o).find? (OpcodeRow.admits a d) := by
  rw [selectRow, rowsOf, List.find?_filter]
  refine List.find?_congr fun r hr => ?_
  rw [Bool.eq_iff_iff, OpcodeRow.selects, Bool.and_eq_true, beq_iff_eq, mkWord_and_mask hr, mkWord_eq_iff]
  simp only [OpcodeRow.admits, OpcodeRow.covers, Bool.and_eq_true, Bool.or_eq_true, beq_iff_eq, decide_eq_true_eq]
  tauto

theorem rowsOf_of_not_legal {t o : BitVec 4} (h : ¬ LegalPair t o) (v : Variant) : rowsOf v t o = [] := by
  refine List.filter_eq_nil_iff.2 fun r hr hsel => h ?_
  simp only [Bool.and_eq_true, beq_iff_eq] at hsel
  obtain ⟨⟨rfl, rfl⟩, -⟩ := hsel
  exact opcodeTable_legal r hr

/-! ## The data byte -/

/-- A write and the factory leave `D` free; every other row has it 0 (R55). -/
theorem opcodeTable_data : ∀ r ∈ opcodeTable, dField r.pattern = 0#8 ∧
    dField r.mask = if oField r.pattern = 1#4 ∨ oField r.pattern = 9#4 then 0#8 else 0xFF#8 := by decide

theorem admits_iff_of_mem_rowsOf {v : Variant} {t o : BitVec 4} {r : OpcodeRow} (hr : r ∈ rowsOf v t o) (a : Addr)
    (d : Byte) : r.admits a d = true ↔ r.covers a = true ∧ (o = 1#4 ∨ o = 9#4 ∨ d = 0#8) := by
  simp only [rowsOf, List.mem_filter, Bool.and_eq_true, beq_iff_eq] at hr
  obtain ⟨hmem, ⟨-, rfl⟩, -⟩ := hr
  obtain ⟨hpattern, hmask⟩ := opcodeTable_data r hmem
  rw [OpcodeRow.admits, Bool.and_eq_true, beq_iff_eq, hpattern, hmask, ← or_assoc]
  split
  next hfree => simp only [BitVec.and_zero, hfree, true_or]
  next hreserved =>
    have hand : d &&& 0xFF#8 = d := BitVec.and_allOnes
    rw [hand, or_iff_right hreserved]

theorem find?_admits_of_data {v : Variant} {t o : BitVec 4} {d : Byte} (h : o = 1#4 ∨ o = 9#4 ∨ d = 0#8)
    (a : Addr) :
    (rowsOf v t o).find? (OpcodeRow.admits a d) = (rowsOf v t o).find? (OpcodeRow.covers a) := by
  refine List.find?_congr fun r hr => ?_
  rw [Bool.eq_iff_iff, admits_iff_of_mem_rowsOf hr, and_iff_left h]

theorem find?_admits_of_not_data {v : Variant} {t o : BitVec 4} {d : Byte} (h : ¬ (o = 1#4 ∨ o = 9#4 ∨ d = 0#8))
    (a : Addr) : (rowsOf v t o).find? (OpcodeRow.admits a d) = none :=
  List.find?_eq_none.2 fun _ hr hadmits => h ((admits_iff_of_mem_rowsOf hr a d).1 hadmits).2

theorem toOption_whenZero {n : Nat} (u : BitVec n) (x : Except Rejection Instr) :
    (whenZero u x).toOption = if u = 0#n then x.toOption else none := by
  unfold whenZero
  split <;> rfl

section agreement
variable {v : Variant} {t o : BitVec 4} {a : Addr} {d : Byte} {x : Except Rejection Instr}
  (hx : x.toOption.map Instr.row = (rowsOf v t o).find? (OpcodeRow.covers a))
include hx

/-- Where `D` is free, a decoder that agrees with the table on `A` agrees on `A` and `D`. -/
theorem row_eq_find?_of_free (ho : o = 1#4 ∨ o = 9#4) :
    x.toOption.map Instr.row = (rowsOf v t o).find? (OpcodeRow.admits a d) := by
  rw [hx, find?_admits_of_data (by tauto)]

/-- Where `D` must be 0, a decoder that agrees with the table on `A` and checks `D` agrees on `A` and `D`. -/
theorem row_whenZero_eq_find? (ho : ¬ (o = 1#4 ∨ o = 9#4)) :
    (whenZero d x).toOption.map Instr.row = (rowsOf v t o).find? (OpcodeRow.admits a d) := by
  rw [toOption_whenZero]
  split
  next hd => rw [hx, find?_admits_of_data (by tauto)]
  next hd => rw [find?_admits_of_not_data (by tauto)]; rfl

end agreement

/-! ## The first row that covers an address, by its place among the rows -/

/-- The pattern and mask of the row's test of `A`. -/
def OpcodeRow.addrTest (r : OpcodeRow) : Addr × Addr := (aField r.pattern, aField r.mask)

/-- `A` passes a test of pattern and mask. -/
def passes (a : Addr) (q : Addr × Addr) : Bool := a &&& q.2 == q.1

/-- The place of the covering row depends only on the tests, which rows of several operations share. -/
theorem find?_covers_of_addrTests {rows : List OpcodeRow} {tests : List (Addr × Addr)}
    (h : rows.map OpcodeRow.addrTest = tests) (a : Addr) :
    rows.find? (OpcodeRow.covers a) = rows[tests.findIdx (passes a)]? := by
  rw [List.find?_eq_getElem?_findIdx, ← h, List.findIdx_map]
  rfl

/-! ## The window (R38, R97) -/

/-- The tests of the window's rows: the eight registers at every mirror, the DMA port, every address. -/
def windowTests : List (Addr × Addr) :=
  [(winAddr 0#3 0#10, 0xE007#16), (winAddr 1#3 0#10, 0xE007#16), (winAddr 2#3 0#10, 0xE007#16),
   (winAddr 3#3 0#10, 0xE007#16), (winAddr 4#3 0#10, 0xE007#16), (winAddr 5#3 0#10, 0xE007#16),
   (winAddr 6#3 0#10, 0xE007#16), (winAddr 7#3 0#10, 0xE007#16), (dmaAddr, 0xFFFF#16), (0#16, 0#16)]

/-- The place of the window row that holds an address. -/
def windowPosition (a : Addr) : Nat :=
  if a.extractLsb' 13 3 = 1#3 then (a.extractLsb' 0 3).toNat else if a = dmaAddr then 8 else 9

theorem bitVec3_cases (r : BitVec 3) :
    r = 0#3 ∨ r = 1#3 ∨ r = 2#3 ∨ r = 3#3 ∨ r = 4#3 ∨ r = 5#3 ∨ r = 6#3 ∨ r = 7#3 := by
  revert r
  decide

theorem winAddr_extract {a : Addr} (h : a.extractLsb' 13 3 = 1#3) :
    winAddr (a.extractLsb' 0 3) (a.extractLsb' 3 10) = a := by
  apply BitVec.eq_of_toNat_eq
  rw [extract_eq_iff, BitVec.toNat_ofNat] at h
  rw [winAddr_toNat, extract_toNat, extract_toNat]; omega

theorem passes_register_of_window {a : Addr} (h : a.extractLsb' 13 3 = 1#3) (p : Addr) :
    passes a (p, 0xE007#16) = (winAddr (a.extractLsb' 0 3) 0#10 == p) := by
  rw [passes, ← winAddr_and _ (a.extractLsb' 3 10), winAddr_extract h]

theorem passes_register_of_not_window {a : Addr} (h : a.extractLsb' 13 3 ≠ 1#3) (r : BitVec 3) :
    passes a (winAddr r 0#10, 0xE007#16) = false := by
  rw [passes, beq_eq_false_iff_ne]
  intro (heq : a &&& 0xE007#16 = winAddr r 0#10)
  have hbits := congrArg (BitVec.extractLsb' 13 3) heq
  rw [BitVec.extractLsb'_and, winAddr_bits_13_3, show BitVec.extractLsb' 13 3 0xE007#16 = BitVec.allOnes 3 from rfl,
    BitVec.and_allOnes] at hbits
  exact h hbits

theorem passes_whole (a p : Addr) : passes a (p, 0xFFFF#16) = decide (a = p) := by
  rw [passes, show (0xFFFF#16 : Addr) = BitVec.allOnes 16 from rfl, BitVec.and_allOnes]; rfl

theorem passes_every (a : Addr) : passes a (0#16, 0#16) = true := by
  rw [passes, BitVec.and_zero]; rfl

theorem findIdx_windowTests (a : Addr) : windowTests.findIdx (passes a) = windowPosition a := by
  unfold windowPosition
  split
  next hw =>
    simp only [windowTests, List.findIdx_cons, passes_register_of_window hw]
    rcases bitVec3_cases (a.extractLsb' 0 3) with h | h | h | h | h | h | h | h <;> rw [h] <;> rfl
  next hw =>
    simp only [windowTests, List.findIdx_cons, passes_register_of_not_window hw, passes_whole, passes_every, cond_false,
      cond_true, Bool.cond_decide]
    split
    · rfl
    · rfl

theorem find?_covers_window {rows : List OpcodeRow} (h : rows.map OpcodeRow.addrTest = windowTests) {a : Addr}
    {i : Instr} (hi : some i.row = rows[windowPosition a]?) : some i.row = rows.find? (OpcodeRow.covers a) := by
  rw [find?_covers_of_addrTests h, findIdx_windowTests, hi]

theorem row_decodeWin (v : Variant) (a : Addr) (d : Byte) :
    some (decodeWinR a).row = (rowsOf v 0#4 0#4)[windowPosition a]? ∧
    some (decodeWinW a d).row = (rowsOf v 0#4 1#4)[windowPosition a]? ∧
    some (decodeWinP a).row = (rowsOf v 0#4 2#4)[windowPosition a]? := by
  unfold windowPosition decodeWinR decodeWinW decodeWinP
  split
  · rcases bitVec3_cases (a.extractLsb' 0 3) with h | h | h | h | h | h | h | h <;> rw [h] <;>
      exact ⟨rfl, rfl, rfl⟩
  · split
    · exact ⟨rfl, rfl, rfl⟩
    · exact ⟨rfl, rfl, rfl⟩

/-! ## The PPU bus (R41) -/

/-- A mask of ones above zeros keeps the high bits. -/
theorem and_high {m k : Nat} (a : BitVec (m + k)) :
    a &&& (BitVec.allOnes m ++ 0#k) = a.extractLsb' k m ++ 0#k := by
  have ha : a.extractLsb' k m ++ a.extractLsb' 0 k = a := by
    rw [BitVec.extractLsb'_append_extractLsb'_eq_extractLsb' (Nat.zero_add k).symm, BitVec.extractLsb'_eq_self]
  conv_lhs => rw [← ha]
  rw [BitVec.and_append, BitVec.and_allOnes, BitVec.and_zero]

theorem and_high_eq_iff {m k : Nat} {a : BitVec (m + k)} {p : BitVec m} :
    a &&& (BitVec.allOnes m ++ 0#k) = p ++ 0#k ↔ a.toNat / 2 ^ k = p.toNat := by
  have hlt : a.toNat / 2 ^ k < 2 ^ m :=
    Nat.div_lt_of_lt_mul (by rw [← Nat.pow_add, Nat.add_comm k m]; exact a.isLt)
  rw [and_high, ← Nat.mod_eq_of_lt hlt, ← extract_eq_iff]
  refine ⟨fun h => ?_, fun h => by rw [h]⟩
  simpa [BitVec.extractLsb'_append_eq_left] using congrArg (BitVec.extractLsb' k m) h

theorem passes_high3 (a : Addr) (p : BitVec 3) :
    passes a (p ++ 0#13, 0xE000#16) = decide (a.toNat / 0x2000 = p.toNat) := by
  rw [Bool.eq_iff_iff, passes, beq_iff_eq, decide_eq_true_iff]
  exact and_high_eq_iff (m := 3) (k := 13)

theorem passes_high8 (a : Addr) (p : BitVec 8) :
    passes a (p ++ 0#8, 0xFF00#16) = decide (a.toNat / 0x100 = p.toNat) := by
  rw [Bool.eq_iff_iff, passes, beq_iff_eq, decide_eq_true_iff]
  exact and_high_eq_iff (m := 8) (k := 8)

/-- The tests of the bus rows: pattern tables, palette, nametables. -/
def busTests : List (Addr × Addr) :=
  [(0#3 ++ 0#13, 0xE000#16), (0x3F#8 ++ 0#8, 0xFF00#16), (1#3 ++ 0#13, 0xE000#16)]

/-- The place of the bus row that holds an address. -/
def busPosition (a : BusAddr) : Nat :=
  if a.extractLsb' 13 1 = 0#1 then 0 else if a.extractLsb' 8 5 = 0x1F#5 then 1 else 2

theorem findIdx_busTests (a : Addr) :
    busTests.findIdx (passes a) = if a.extractLsb' 14 2 = 0#2 then busPosition (a.extractLsb' 0 14) else 3 := by
  have ha := a.isLt
  simp only [busTests, List.findIdx_cons, List.findIdx_nil, passes_high3, passes_high8, Bool.cond_decide,
    busPosition, extract_eq_iff, extract_toNat, BitVec.toNat_ofNat]
  grind

theorem find?_covers_bus {rows : List OpcodeRow} (h : rows.map OpcodeRow.addrTest = busTests) {a : Addr} {i : Instr}
    (hi : some i.row = rows[busPosition (a.extractLsb' 0 14)]?) :
    (whenZero (a.extractLsb' 14 2) (.ok i)).toOption.map Instr.row = rows.find? (OpcodeRow.covers a) := by
  have hlen : rows.length = 3 := by rw [← List.length_map (f := OpcodeRow.addrTest), h]; rfl
  rw [find?_covers_of_addrTests h, findIdx_busTests, toOption_whenZero]
  split
  · exact hi
  · exact (List.getElem?_eq_none hlen.le).symm

theorem row_decodeBus (v : Variant) (a : BusAddr) (d : Byte) :
    some (decodeBusR a).row = (rowsOf v 2#4 0#4)[busPosition a]? ∧
    some (decodeBusW a d).row = (rowsOf v 2#4 1#4)[busPosition a]? ∧
    some (decodeBusP a).row = (rowsOf v 2#4 2#4)[busPosition a]? := by
  unfold busPosition decodeBusR decodeBusW decodeBusP
  split
  · exact ⟨rfl, rfl, rfl⟩
  · split
    · exact ⟨rfl, rfl, rfl⟩
    · exact ⟨rfl, rfl, rfl⟩

/-! ## The cartridge (R39): `A[15:12]` alone decides the row -/

theorem find?_covers_and {rows : List OpcodeRow} {m : Addr} (h : ∀ r ∈ rows, aField r.mask &&& m = aField r.mask)
    (a : Addr) : rows.find? (OpcodeRow.covers (a &&& m)) = rows.find? (OpcodeRow.covers a) := by
  refine List.find?_congr fun r hr => ?_
  rw [OpcodeRow.covers, OpcodeRow.covers, BitVec.and_assoc, BitVec.and_comm m, h r hr]

theorem extract_and_of_ones {a m : Addr} {lo len : Nat} (h : m.extractLsb' lo len = BitVec.allOnes len) :
    (a &&& m).extractLsb' lo len = a.extractLsb' lo len := by
  rw [BitVec.extractLsb'_and, h, BitVec.and_allOnes]

theorem and_F000 (a : Addr) : a &&& 0xF000#16 = a.extractLsb' 12 4 ++ 0#12 := and_high (m := 4) (k := 12) a

theorem row_decodeCartR_and (v : Variant) (a : Addr) :
    (decodeCartR v (a &&& 0xF000#16)).row = (decodeCartR v a).row := by
  simp only [decodeCartR, extract_and_of_ones (m := 0xF000#16) (lo := 13) (len := 3) rfl,
    extract_and_of_ones (m := 0xF000#16) (lo := 15) (len := 1) rfl,
    extract_and_of_ones (m := 0xF000#16) (lo := 14) (len := 1) rfl,
    extract_and_of_ones (m := 0xF000#16) (lo := 12) (len := 1) rfl]
  cases v <;> dsimp only <;> split_ifs <;> rfl

theorem row_decodeCartW_and (v : Variant) (a : Addr) (d : Byte) :
    (decodeCartW v (a &&& 0xF000#16) 0#8).row = (decodeCartW v a d).row := by
  simp only [decodeCartW, extract_and_of_ones (m := 0xF000#16) (lo := 13) (len := 3) rfl,
    extract_and_of_ones (m := 0xF000#16) (lo := 15) (len := 1) rfl,
    extract_and_of_ones (m := 0xF000#16) (lo := 13) (len := 2) rfl]
  cases v
  case mmc1 =>
    dsimp only
    split_ifs
    · rfl
    · split <;> rfl
    · rfl
    · rfl
  all_goals
    dsimp only
    split_ifs <;> rfl

theorem find?_covers_cartR (v : Variant) (a : Addr) :
    (rowsOf v 1#4 0#4).find? (OpcodeRow.covers a) = some (decodeCartR v a).row := by
  have hmask : ∀ r ∈ rowsOf v 1#4 0#4, aField r.mask &&& 0xF000#16 = aField r.mask := by cases v <;> decide
  have hpages : ∀ n : BitVec 4, (rowsOf v 1#4 0#4).find? (OpcodeRow.covers (n ++ 0#12)) =
      some (decodeCartR v (n ++ 0#12)).row := by cases v <;> decide
  rw [← find?_covers_and hmask, ← row_decodeCartR_and, and_F000]
  exact hpages _

theorem find?_covers_cartW (v : Variant) (a : Addr) (d : Byte) :
    (rowsOf v 1#4 1#4).find? (OpcodeRow.covers a) = some (decodeCartW v a d).row := by
  have hmask : ∀ r ∈ rowsOf v 1#4 1#4, aField r.mask &&& 0xF000#16 = aField r.mask := by cases v <;> decide
  have hpages : ∀ n : BitVec 4, (rowsOf v 1#4 1#4).find? (OpcodeRow.covers (n ++ 0#12)) =
      some (decodeCartW v (n ++ 0#12) 0#8).row := by cases v <;> decide
  rw [← find?_covers_and hmask, ← row_decodeCartW_and, and_F000]
  exact hpages _

/-- A variant's peek row holds every address. -/
theorem find?_covers_cartP (v : Variant) (a : Addr) :
    (rowsOf v 1#4 2#4).find? (OpcodeRow.covers a) = some (decodeCartP v a).row := by
  cases v <;> exact List.find?_cons_of_pos (passes_every a)

/-! ## The rows with no address -/

theorem find?_covers_noAddress {i : Instr} (h : i.row.addrTest = (0#16, 0xFFFF#16)) (a : Addr) :
    (whenZero a (.ok i)).toOption.map Instr.row = [i.row].find? (OpcodeRow.covers a) := by
  have hcovers : i.row.covers a = decide (a = 0#16) := by
    rw [← passes_whole, ← h]; rfl
  rw [toOption_whenZero, List.find?_cons, hcovers]
  split
  next ha => rw [decide_eq_true ha]; rfl
  next ha => rw [decide_eq_false ha]; rfl

/-! ## The decoder follows the table (R58) -/

theorem row_decodeFields (v : Variant) (t o : BitVec 4) (a : Addr) (d : Byte) :
    (decodeFields (some v) t o a d).toOption.map Instr.row = (rowsOf v t o).find? (OpcodeRow.admits a d) := by
  by_cases h : LegalPair t o
  case neg =>
    rw [decodeFields_of_not_legal h, rowsOf_of_not_legal h]
    rfl
  case pos =>
    obtain ⟨hwinR, hwinW, hwinP⟩ := row_decodeWin v a d
    obtain ⟨hbusR, hbusW, hbusP⟩ := row_decodeBus v (a.extractLsb' 0 14) d
    cases h with
    | winR => exact row_whenZero_eq_find? (find?_covers_window rfl hwinR) (by decide)
    | winW => exact row_eq_find?_of_free (x := .ok _) (find?_covers_window rfl hwinW) (by decide)
    | winP => exact row_whenZero_eq_find? (find?_covers_window rfl hwinP) (by decide)
    | cartR => exact row_whenZero_eq_find? (find?_covers_cartR v a).symm (by decide)
    | cartW => exact row_eq_find?_of_free (x := .ok _) (find?_covers_cartW v a d).symm (by decide)
    | cartP => exact row_whenZero_eq_find? (find?_covers_cartP v a).symm (by decide)
    | busR => exact row_whenZero_eq_find? (find?_covers_bus rfl hbusR) (by decide)
    | busW => exact row_eq_find?_of_free (find?_covers_bus rfl hbusW) (by decide)
    | busP => exact row_whenZero_eq_find? (find?_covers_bus rfl hbusP) (by decide)
    | ppuTick => exact row_whenZero_eq_find? (find?_covers_noAddress rfl a) (by decide)
    | ppuPowerCycle => exact row_whenZero_eq_find? (find?_covers_noAddress rfl a) (by decide)
    | ppuReset => exact row_whenZero_eq_find? (find?_covers_noAddress rfl a) (by decide)
    | ppuFramebuffer => exact row_whenZero_eq_find? (find?_covers_noAddress rfl a) (by decide)
    | ppuFrameCount => exact row_whenZero_eq_find? (find?_covers_noAddress rfl a) (by decide)
    | mapTick => exact row_whenZero_eq_find? (find?_covers_noAddress rfl a) (by decide)
    | mapMirroring => exact row_whenZero_eq_find? (find?_covers_noAddress rfl a) (by decide)
    | mapFactory =>
      have htest : (Instr.mapFactory d).row.addrTest = (0#16, 0xFFFF#16) := by rw [OpcodeRow.addrTest, Instr.row]; rfl
      exact row_eq_find?_of_free (find?_covers_noAddress htest a) (by decide)

/-- Settles O3: `T` and `O` cut the table down to the rows of one pair, and among these the decoder's tests of `A` and
`D` find the row the table's order does. -/
theorem decoderFollowsOpcodeTable : Obligations.DecoderFollowsOpcodeTable := by
  unfold Obligations.DecoderFollowsOpcodeTable
  intro v w
  rw [← mkWord_fields w, decode_mkWord, selectRow_mkWord]
  exact row_decodeFields v _ _ _ _

/-! ## The legal words (R55) -/

theorem whenZero_ne_badWord {n : Nat} {u : BitVec n} {x : Except Rejection Instr} :
    whenZero u x ≠ .error .badWord ↔ u = 0#n ∧ x ≠ .error .badWord := by
  unfold whenZero
  split
  next h => simp [h]
  next h => simp [h]

theorem onSlot_ne_badWord (slot : Option Variant) (f : Variant → Instr) : onSlot slot f ≠ .error .badWord := by
  cases slot <;> exact fun h => nomatch h

theorem decodeFields_ne_badWord_iff (slot : Option Variant) (t o : BitVec 4) (a : Addr) (d : Byte) :
    decodeFields slot t o a d ≠ .error .badWord ↔
      (t.toNat ≤ 1 ∧ o.toNat ≤ 2 ∧ (o.toNat = 1 ∨ d.toNat = 0)) ∨
      (t.toNat = 2 ∧ o.toNat ≤ 2 ∧ (o.toNat = 1 ∨ d.toNat = 0) ∧ a.toNat < 2 ^ 14) ∨
      (t.toNat = 3 ∧ (o.toNat = 3 ∨ o.toNat = 4 ∨ o.toNat = 5 ∨ o.toNat = 7 ∨ o.toNat = 8) ∧ a.toNat = 0 ∧
        d.toNat = 0) ∨
      (t.toNat = 4 ∧ (o.toNat = 3 ∨ o.toNat = 6) ∧ a.toNat = 0 ∧ d.toNat = 0) ∨
      (t.toNat = 4 ∧ o.toNat = 9 ∧ a.toNat = 0) := by
  by_cases h : LegalPair t o
  case neg =>
    rw [decodeFields_of_not_legal h]
    rw [legalPair_iff] at h
    exact iff_of_false (fun hne => hne rfl) (by omega)
  case pos =>
    have hbus : a.extractLsb' 14 2 = 0#2 ↔ a.toNat < 2 ^ 14 := by
      rw [extract_eq_iff, BitVec.toNat_ofNat]; have := a.isLt; omega
    have ha : a.toNat = 0 ↔ a = 0#16 := by rw [← BitVec.toNat_inj]; rfl
    have hd : d.toNat = 0 ↔ d = 0#8 := by rw [← BitVec.toNat_inj]; rfl
    rw [ha, hd, ← hbus]
    -- Each pair's decoder is `whenZero` of the fields R55 wants zero.
    cases h <;> simp [whenZero_ne_badWord, onSlot_ne_badWord, and_comm]

/-- Settles O5: the condition on the four fields, at the fields of the word. -/
theorem legalWords : Obligations.LegalWords := by
  unfold Obligations.LegalWords
  intro slot w
  have ht : (tField w).toNat = w.toNat / 2 ^ 28 := by rw [tField, extract_toNat]; have := w.isLt; omega
  have ho : (oField w).toNat = w.toNat / 2 ^ 24 % 2 ^ 4 := extract_toNat w 24 4
  have ha : (aField w).toNat = w.toNat / 2 ^ 8 % 2 ^ 16 := extract_toNat w 8 16
  have hd : (dField w).toNat = w.toNat % 2 ^ 8 := by rw [dField, extract_toNat]; omega
  rw [← ht, ← ho, ← ha, ← hd]
  exact decodeFields_ne_badWord_iff slot _ _ _ _

/-- Settles O4: each word's fields are literals, and only a cartridge word's row looks at the slot. -/
theorem commonWordsDecode : Obligations.CommonWordsDecode := by
  unfold Obligations.CommonWordsDecode
  refine ⟨fun slot => ?anySlot, ?cartridge⟩
  case anySlot => exact ⟨rfl, rfl, rfl, rfl, rfl, rfl, rfl, rfl, rfl, rfl, rfl, rfl, rfl, rfl, rfl, rfl, rfl⟩
  case cartridge => exact ⟨rfl, rfl, rfl, rfl, rfl, rfl, rfl, rfl⟩

end Sys2Proof
end

section
/-! PROOFS. The mapper's rows (40_mapper.md): the peek row and the unmapped addresses, the banks each window shows, the
serial load port, the topology, the factory, and the statements settled from them. -/

namespace Sys2Proof.Machine

/-! ## Peeks, and the addresses no range holds (R64, R69) -/

theorem Variant.maps_eq_false_iff {v : Variant} {a : Addr} :
    v.maps a = false ↔ ¬ a.toNat < 0x2000 ∧ ¬ 0x8000 ≤ a.toNat ∧ (v = .mmc1 → ¬ 0x6000 ≤ a.toNat) := by
  simp only [Variant.maps, Bool.or_eq_false_iff, Bool.and_eq_false_imp, beq_eq_false_iff_ne, beq_iff_eq, ne_eq,
    chrRange_iff, prgRange_iff, and_assoc]
  refine and_congr_right fun _ => and_congr_right fun hprg => ?_
  rw [prgRamRange_iff hprg]

theorem Mapper.read_of_unmapped {m : Mapper} {a : Addr} (h : m.variant.maps a = false) (cfg : Params) :
    m.read cfg a = unmappedRead cfg a := by
  obtain ⟨hchr, hprg, hram⟩ := Variant.maps_eq_false_iff.1 h
  unfold Mapper.variant at hram
  unfold Mapper.read
  cases hr : m.regs with
  | nrom => simp only [Mapper.nromRead, if_neg hchr, if_neg hprg]
  | mmc1 r => rw [hr] at hram; simp only [Mapper.mmc1Read, if_neg hchr, if_neg hprg, if_neg (hram rfl)]
  | uxrom b => simp only [Mapper.uxromRead, if_neg hchr, if_neg hprg]
  | cnrom b => simp only [Mapper.cnromRead, if_neg hchr, if_neg hprg]

theorem Mapper.write_of_unmapped {m : Mapper} {a : Addr} (h : m.variant.maps a = false) (d : Byte) :
    m.write a d = m := by
  obtain ⟨hchr, hprg, hram⟩ := Variant.maps_eq_false_iff.1 h
  unfold Mapper.variant at hram
  unfold Mapper.write
  cases hr : m.regs with
  | nrom => simp only [Mapper.nromWrite, if_neg hchr]
  | mmc1 r => rw [hr] at hram; simp only [Mapper.mmc1Write, if_neg hchr, if_neg hprg, if_neg (hram rfl)]
  | uxrom b => simp only [Mapper.uxromWrite, if_neg hchr, if_neg hprg]
  | cnrom b => simp only [Mapper.cnromWrite, if_neg hchr, if_neg hprg]

/-- The peek row of the variant in the slot answers `CartRead`, at every address (R64). -/
theorem exec_decodeCartP {s : State} {m : Mapper} (hm : s.mapper = some m) (a : Addr) :
    exec (decodeCartP m.variant a) s = answer s (m.read s.cfg a) := by
  unfold Mapper.variant Mapper.read
  cases hr : m.regs with
  | nrom => exact withNrom_of_regs hm hr _
  | mmc1 r => exact withMmc1_of_regs hm hr _
  | uxrom b => exact withUxrom_of_regs hm hr _
  | cnrom b => exact withCnrom_of_regs hm hr _

/-- Settles O49: read row and peek row both answer `CartRead`; where no range holds the address the read rule and the
write rule of every variant fall through to their last case. -/
theorem cartridgePeekIsRead : Obligations.CartridgePeekIsRead := by
  unfold Obligations.CartridgePeekIsRead
  intro s m a hm
  refine ⟨exec_decodeCartR hm a, exec_decodeCartP hm a, fun hunmapped => ⟨?read, fun d => ?write⟩⟩
  case read => exact Mapper.read_of_unmapped hunmapped s.cfg
  case write =>
    rw [exec_decodeCartW hm, Mapper.write_of_unmapped hunmapped, State.setMapper_self hm]
    rfl

/-! ## The program windows -/

section program
variable (m : Mapper)

/-- Two fixed windows: bank 0 below $C000, above it the bank `high` picks (R78, R95). -/
theorem Mapper.fixedPrgRead_prgAddr (high : Nat) (o : BitVec 15) :
    m.fixedPrgRead high (prgAddr o) =
      m.prg.get ((if o.toNat < 0x4000 then 0 else high % m.nprg16) * 16384 + o.toNat % 16384) := by
  have hwindow : (prgAddr o).toNat < 0xC000 ↔ o.toNat < 0x4000 := by rw [prgAddr_toNat]; omega
  have hoff : (prgAddr o).toNat % Config.prgBank = o.toNat % 16384 := by rw [prgAddr_toNat, Config.prgBank]; omega
  simp only [Mapper.fixedPrgRead, Mapper.prgRead, bankOffset, hwindow, hoff, apply_ite (· % m.nprg16), Nat.zero_mod]
  rfl

/-- In the window at $8000 a program read shows the bank the variant selects there. -/
theorem Mapper.prgRead_prgLoAddr (lo hi : Nat) (o : BitVec 14) :
    m.prgRead (if (prgLoAddr o).toNat < 0xC000 then lo else hi) (prgLoAddr o) =
      m.prg.get (lo % m.nprg16 * 16384 + o.toNat) := by
  have haddr := prgLoAddr_toNat o
  have hoff : (prgLoAddr o).toNat % Config.prgBank = o.toNat := by rw [Config.prgBank]; omega
  rw [if_pos (by omega), Mapper.prgRead, bankOffset, hoff]
  rfl

/-- In the window at $C000 a program read shows the bank the variant selects there. -/
theorem Mapper.prgRead_prgHiAddr (lo hi : Nat) (o : BitVec 14) :
    m.prgRead (if (prgHiAddr o).toNat < 0xC000 then lo else hi) (prgHiAddr o) =
      m.prg.get (hi % m.nprg16 * 16384 + o.toNat) := by
  have haddr := prgHiAddr_toNat o
  have hoff : (prgHiAddr o).toNat % Config.prgBank = o.toNat := by rw [Config.prgBank]; omega
  rw [if_neg (by omega), Mapper.prgRead, bankOffset, hoff]
  rfl

end program

/-- A row that is `ChrWrite` changes one byte of CHR-RAM and nothing of CHR-ROM (R70). -/
theorem exists_chr_of_chrWrite {s : State} {m : Mapper} {off : Nat} {d : Byte} {res : Result}
    (h : res = done (s.setMapper (some (m.chrWrite off d)))) :
    ∃ chr : Memory, res = .next { s with mapper := some { m with chr := chr }, reply := .none } ∧
      ∀ j, chr.get j = (if m.chrSize = 0 ∧ j = off then d else m.chr.get j) := by
  refine ⟨(m.chrWrite off d).chr, ?_, fun j => m.chrWrite_get off j d⟩
  rw [h, Mapper.chrWrite_eq]
  rfl

/-! ## Variants 0, 2 and 3 -/

/-- Settles O50: each row is its rule on the mapper in the slot; a program read is the two fixed windows with bank 1 at
$C000. -/
theorem nromRows : Obligations.NromRows := by
  unfold Obligations.NromRows
  intro s m hm hr
  have hrow := withNrom_of_regs hm hr
  refine ⟨fun o => ?chrR, fun o d => ?chrW, fun o => ?prgR, fun o d => hrow _, fun a d => hrow _,
    fun a => ⟨hrow _, ?peek⟩⟩
  case chrR => exact (hrow _).trans (by rw [chrAddr_toNat]; rfl)
  case chrW => exact exists_chr_of_chrWrite ((hrow _).trans (by rw [chrAddr_toNat]))
  case prgR => exact (hrow _).trans (by rw [Mapper.fixedPrgRead_prgAddr]; rfl)
  case peek => exact (hrow _).trans (by rw [Mapper.read, hr]; rfl)

/-- Settles O51: each row is its rule on the mapper in the slot and its bank register; the last bank needs no reduction
modulo the bank count. -/
theorem uxromRows : Obligations.UxromRows := by
  unfold Obligations.UxromRows
  intro s m bank hm hr
  have hrow := withUxrom_of_regs hm hr
  refine ⟨fun o d => hrow _, fun o => ?prgLo, fun o => ?prgHi, fun o => ?chrR, fun o d => ?chrW,
    fun a d => ⟨hrow _, hrow _, ?peek⟩⟩
  case prgLo => exact (hrow _).trans (by rw [Mapper.uxromPrgRead, Mapper.prgRead_prgLoAddr]; rfl)
  case prgHi => exact (hrow _).trans (by rw [Mapper.uxromPrgRead, Mapper.prgRead_prgHiAddr, Nat.self_sub_mod]; rfl)
  case chrR => exact (hrow _).trans (by rw [chrAddr_toNat]; rfl)
  case chrW => exact exists_chr_of_chrWrite ((hrow _).trans (by rw [chrAddr_toNat]))
  case peek => exact (hrow _).trans (by rw [Mapper.read, hr]; rfl)

theorem Mapper.cnromChrOff_chrAddr (m : Mapper) (bank : Byte) (p : BitVec 13) :
    m.cnromChrOff bank (chrAddr p) = bank.toNat % m.nchr8 * 8192 + p.toNat := by
  have hoff : (chrAddr p).toNat % Config.chrBank = p.toNat := by rw [chrAddr_toNat, Config.chrBank]; omega
  rw [Mapper.cnromChrOff, bankOffset, hoff]
  rfl

/-- R95's bank 1 at $C000, where the parameter picks R95 or one or two banks leave no choice (log 30). -/
theorem Mapper.cnromHighSelect_mod_of_bankOne {m : Mapper} {cfg : Params}
    (h : cfg.cnromHighWindow = .bankOne ∨ m.nprg16 = 1 ∨ m.nprg16 = 2) :
    m.cnromHighSelect cfg % m.nprg16 = 1 % m.nprg16 := by
  rcases h with hcfg | hbanks
  · rw [Mapper.cnromHighSelect, hcfg]
  · rw [Mapper.cnromHighSelect_mod m cfg (by omega), if_pos (.inr (by omega))]

/-- Settles O52: each row is its rule on the mapper in the slot and its bank register; the program windows are those of
variant 0 where R95's bank 1 is the one at $C000. -/
theorem cnromRows : Obligations.CnromRows := by
  unfold Obligations.CnromRows
  intro s m bank hm hr window
  have hrow := withCnrom_of_regs hm hr
  refine ⟨fun o d => hrow _, fun p => ?chrR, fun p d => ?chrW, fun hhigh o => ?prgR,
    fun a d => ⟨hrow _, hrow _, ?peek⟩⟩
  case chrR => exact (hrow _).trans (by rw [Mapper.cnromChrOff_chrAddr]; rfl)
  case chrW => exact exists_chr_of_chrWrite ((hrow _).trans (by rw [Mapper.cnromChrOff_chrAddr]; rfl))
  case prgR =>
    refine (hrow _).trans ?_
    rw [Mapper.cnromPrgRead, Mapper.fixedPrgRead_prgAddr, Mapper.cnromHighSelect_mod_of_bankOne hhigh]
    rfl
  case peek => exact (hrow _).trans (by rw [Mapper.read, hr]; rfl)

/-! ## Variant 1: the banks of its windows (R84, R85) -/

theorem Mmc1.prgBanks_eq (r : Mmc1) (n : Nat) :
    let p := r.prg.toNat % 16
    let mode := r.control.toNat / 4 % 4
    r.prgBanks n =
      (if mode ≤ 1 then p - p % 2 else if mode = 2 then 0 else p,
       if mode ≤ 1 then p - p % 2 + 1 else if mode = 2 then p else n - 1) := by
  intro p mode
  have hp : (r.prg.extractLsb' 0 4).toNat = p := by rw [extract_toNat, pow_zero, Nat.div_one]; rfl
  have hmode : (r.control.extractLsb' 2 2).toNat = mode := extract_toNat _ _ _
  have heven : p / 2 * 2 = p - p % 2 := by omega
  simp only [Mmc1.prgBanks, hp, hmode, heven]
  split
  · rfl
  · split
    · rfl
    · rfl

theorem Mmc1.chrBanks_eq (r : Mmc1) :
    let pair := r.chr0.toNat - r.chr0.toNat % 2
    r.chrBanks = (if r.control.getLsbD 4 = true then r.chr0.toNat else pair,
      if r.control.getLsbD 4 = true then r.chr1.toNat else pair + 1) := by
  intro pair
  have heven : r.chr0.toNat / 2 * 2 = pair := by omega
  simp only [Mmc1.chrBanks, heven]
  split
  · rfl
  · rfl

/-- The graphics windows are the two halves of the graphics range, each showing its 4 KB bank (R85). -/
theorem Mapper.mmc1ChrOff_eq (m : Mapper) (r : Mmc1) (a : Addr) :
    m.mmc1ChrOff r a =
      (if a.toNat < 4096 then r.chrBanks.1 else r.chrBanks.2) % m.nchr4 * 4096 + a.toNat % 4096 := rfl

theorem Mapper.mmc1ChrOff_chrLoAddr (m : Mapper) (r : Mmc1) (o : BitVec 12) :
    m.mmc1ChrOff r (chrLoAddr o) = r.chrBanks.1 % m.nchr4 * 4096 + o.toNat := by
  rw [Mapper.mmc1ChrOff_eq, chrLoAddr_toNat, if_pos o.isLt, Nat.mod_eq_of_lt o.isLt]

theorem Mapper.mmc1ChrOff_chrHiAddr (m : Mapper) (r : Mmc1) (o : BitVec 12) :
    m.mmc1ChrOff r (chrHiAddr o) = r.chrBanks.2 % m.nchr4 * 4096 + o.toNat := by
  have haddr := chrHiAddr_toNat o
  have hoff : (chrHiAddr o).toNat % 4096 = o.toNat := by omega
  rw [Mapper.mmc1ChrOff_eq, if_neg (by omega), hoff]

/-- Settles O54: each row is its rule on the mapper in the slot and its registers, at the banks that `prgBanks_eq` and
`chrBanks_eq` write out. -/
theorem mmc1Rows : Obligations.Mmc1Rows := by
  unfold Obligations.Mmc1Rows
  intro s m r hm hr n16 p mode lo16 hi16 n4 split lo4 hi4
  have hrow := withMmc1_of_regs hm hr
  have hprg : r.prgBanks m.nprg16 = (lo16, hi16) := r.prgBanks_eq m.nprg16
  have hchr : r.chrBanks = (lo4, hi4) := r.chrBanks_eq
  refine ⟨fun o => hrow _, fun o d => ?ramW, fun o => ⟨?prgLo, ?prgHi⟩, fun o => ⟨?chrLo, ?chrHi⟩, fun o d => ?chrW,
    fun a d => ⟨hrow _, hrow _, ?peek⟩⟩
  case ramW => exact ⟨_, hrow _, fun j => Memory.get_set _ _ j d⟩
  case prgLo => exact (hrow _).trans (by simp only [Mapper.mmc1PrgRead, hprg, Mapper.prgRead_prgLoAddr]; rfl)
  case prgHi => exact (hrow _).trans (by simp only [Mapper.mmc1PrgRead, hprg, Mapper.prgRead_prgHiAddr]; rfl)
  case chrLo => exact (hrow _).trans (by rw [Mapper.mmc1ChrOff_chrLoAddr, hchr]; rfl)
  case chrHi => exact (hrow _).trans (by rw [Mapper.mmc1ChrOff_chrHiAddr, hchr]; rfl)
  case chrW => exact exists_chr_of_chrWrite ((hrow _).trans (by rw [Mapper.mmc1ChrOff_eq, hchr, chrAddr_toNat]; rfl))
  case peek => exact (hrow _).trans (by rw [Mapper.read, hr]; rfl)

/-! ## Variant 1: the serial load port (R82, R83) -/

/-- Shifting in puts bit 0 of the byte on top of the register's upper four bits. -/
theorem Mmc1.shiftIn_toNat (r : Mmc1) (d : Byte) :
    (r.shiftIn d).toNat = r.shift.toNat / 2 + d.toNat % 2 * 16 := by
  have hlow : r.shift.toNat / 2 < 2 ^ 4 := by omega
  have hbit : (d.extractLsb' 0 1).toNat = d.toNat % 2 := by rw [extract_toNat, pow_zero, Nat.div_one, pow_one]
  have htop : ((d.extractLsb' 0 1).setWidth 5 <<< 4).toNat = (d.toNat % 2) <<< 4 := by
    rw [BitVec.toNat_shiftLeft, BitVec.toNat_setWidth, hbit, Nat.shiftLeft_eq, Nat.shiftLeft_eq]; omega
  rw [Mmc1.shiftIn, BitVec.toNat_or, htop, BitVec.toNat_ushiftRight, Nat.shiftRight_eq_div_pow, pow_one, Nat.or_comm,
    ← Nat.shiftLeft_add_eq_or_of_lt hlow, Nat.shiftLeft_eq, Nat.add_comm]

section serial
variable {r : Mmc1} {d : Byte} (sel : BitVec 2)

theorem Mmc1.serialWrite_of_reset (h : d.getLsbD 7 = true) :
    r.serialWrite sel d = { r with shift := 0, count := 0, control := r.control ||| 0x0C#5 } := if_pos h

theorem Mmc1.serialWrite_of_shift (h : d.getLsbD 7 = false) (hc : r.count ≠ 4) :
    r.serialWrite sel d = { r with shift := r.shiftIn d, count := r.count + 1 } := by
  rw [Mmc1.serialWrite, if_neg (Bool.eq_false_iff.1 h), if_neg hc]

theorem Mmc1.serialWrite_of_fifth (h : d.getLsbD 7 = false) (hc : r.count = 4) :
    r.serialWrite sel d = { r.commit sel (r.shiftIn d) with shift := 0, count := 0 } := by
  rw [Mmc1.serialWrite, if_neg (Bool.eq_false_iff.1 h), if_pos hc]

end serial

/-- The four rows of the port are one write, told which quarter its address is in (R82). -/
theorem exec_serialPort {s : State} {m : Mapper} {r : Mmc1} (hm : s.mapper = some m) (hr : m.regs = .mmc1 r)
    (sel : BitVec 2) (o : BitVec 13) (d : Byte) :
    exec (serialPort sel o d) s = done (s.setMapper (some (m.setMmc1 (r.serialWrite sel d)))) := by
  refine Eq.trans ?_ (show serialPortWrite sel d s = _ from withMmc1_of_regs hm hr _)
  unfold serialPort
  split
  · rfl
  · rfl
  · rfl
  · have hlast : sel = 3#2 := by revert sel; decide
    rw [hlast]; rfl

/-- Settles O55: every row is the one write of `exec_serialPort`, in the three cases of `serialWrite`; the row's quarter
tells which register takes the fifth bit's value. -/
theorem mmc1SerialPort : Obligations.Mmc1SerialPort := by
  unfold Obligations.Mmc1SerialPort
  intro s m r o d hm hr
  have hrow := fun sel => exec_serialPort hm hr sel o d
  refine ⟨r.shiftIn d, r.shiftIn_toNat d, fun hreset sel => ?reset, fun hdata hcount sel => ?shift,
    fun hdata hcount => ?fifth⟩
  case reset => rw [hrow, Mmc1.serialWrite_of_reset sel hreset]; rfl
  case shift => rw [hrow, Mmc1.serialWrite_of_shift sel hdata hcount]; rfl
  case fifth =>
    have hcommit := fun sel => (hrow sel).trans (by rw [Mmc1.serialWrite_of_fifth sel hdata hcount])
    exact ⟨hcommit 0#2, hcommit 1#2, hcommit 2#2, hcommit 3#2⟩

/-! ## The topology and the mapper's tick (R66, R67) -/

theorem Mmc1.topology_eq (r : Mmc1) :
    r.topology = (if r.control.toNat % 4 = 0 then .singleLower else if r.control.toNat % 4 = 1 then .singleUpper
      else if r.control.toNat % 4 = 2 then .vertical else .horizontal) := by
  have hbits : r.control.toNat % 4 = (r.control.extractLsb' 0 2).toNat := by
    rw [extract_toNat, pow_zero, Nat.div_one]; rfl
  rw [hbits, Mmc1.topology]
  generalize r.control.extractLsb' 0 2 = q
  revert q
  decide

section mirroring
variable {m : Mapper}

theorem Mapper.mirroring_of_not_mmc1 (h : ∀ r, m.regs ≠ .mmc1 r) : m.mirroring = m.hint.topology := by
  unfold Mapper.mirroring
  cases hr : m.regs with
  | nrom => rfl
  | mmc1 r => exact absurd hr (h r)
  | uxrom b => rfl
  | cnrom b => rfl

theorem Mapper.mirroring_of_mmc1 {r : Mmc1} (hr : m.regs = .mmc1 r) :
    m.mirroring = if m.hint = .fourScreen then .fourScreen else r.topology := by
  rw [Mapper.mirroring, hr]

theorem Mapper.mirroring_of_fourScreen (h : m.hint = .fourScreen) : m.mirroring = .fourScreen := by
  by_cases hr : ∃ r, m.regs = .mmc1 r
  · obtain ⟨r, hr⟩ := hr
    rw [Mapper.mirroring_of_mmc1 hr, if_pos h]
  · rw [Mapper.mirroring_of_not_mmc1 (not_exists.1 hr), h]
    rfl

end mirroring

theorem withMapper_of_some {s : State} {m : Mapper} (hm : s.mapper = some m) (f : Mapper → Result) :
    withMapper s f = f m := by
  simp only [withMapper, hm]

theorem exec_mapMirroring {s : State} {m : Mapper} (hm : s.mapper = some m) :
    exec .mapMirroring s = .next { s with reply := .topology m.mirroring } :=
  withMapper_of_some hm _

/-- Settles O57: the topology is `Mapper.mirroring`, in its three cases. -/
theorem mirroringAndMapperTick : Obligations.MirroringAndMapperTick := by
  unfold Obligations.MirroringAndMapperTick
  intro s m hm
  refine ⟨withMapper_of_some hm _, m.mirroring, exec_mapMirroring hm, Mapper.mirroring_of_fourScreen,
    fun r hr hhint => ?mmc1, fun hregs => ?hint⟩
  case mmc1 => rw [Mapper.mirroring_of_mmc1 hr, if_neg hhint, Mmc1.topology_eq]
  case hint =>
    rw [Mapper.mirroring_of_not_mmc1 hregs]
    exact ⟨fun h => by rw [h]; rfl, fun h => by rw [h]; rfl⟩

/-! ## The factory (R71 to R74, R173) -/

theorem Metadata.validates_iff {md : Metadata} :
    md.validates = true ↔
      md.valid = true ∧ md.prgSize ≠ 0 ∧ md.prgSize % 16384 = 0 ∧ md.chrSize % 8192 = 0 ∧
        md.prgBytes.len = md.prgSize ∧ md.chrBytes.len = md.chrSize := by
  simp only [Metadata.validates, Bool.and_eq_true, decide_eq_true_eq, and_assoc]
  rfl

theorem regsOf_of_ge {id : Byte} (h : 4 ≤ id.toNat) : regsOf id = none := by
  unfold regsOf
  split
  · contradiction
  · contradiction
  · contradiction
  · contradiction
  · rfl

theorem exists_regsOf_of_lt {id : Byte} (h : id.toNat < 4) : ∃ regs, regsOf id = some regs := by
  have hid : id = 0#8 ∨ id = 1#8 ∨ id = 2#8 ∨ id = 3#8 := by bv_omega
  rcases hid with rfl | rfl | rfl | rfl <;> exact ⟨_, rfl⟩

/-- Sizing a memory down leaves every byte below the new size. -/
theorem Cells.get_truncate {α : Type} (d : α) {n k : Nat} (hk : k < n) (m : Cells α) :
    Cells.get d k (Cells.truncate n m) = Cells.get d k m := by
  induction m with
  | nil => rfl
  | cons c m ih =>
    obtain ⟨a, x⟩ := c
    rw [Cells.truncate, List.filter_cons]
    split
    next => rw [Cells.get, Cells.get]; exact if_congr Iff.rfl rfl ih
    next hdropped =>
      have hne : a ≠ k := fun h => hdropped (decide_eq_true (h ▸ hk))
      rw [Cells.get, if_neg hne]
      exact ih

theorem ntramSizeOf_of_fourScreen {m : Mapper} (h : m.mirroring = .fourScreen) : ntramSizeOf (some m) = 4096 :=
  if_pos h

theorem ntramSizeOf_of_not_fourScreen {m : Mapper} (h : m.mirroring ≠ .fourScreen) : ntramSizeOf (some m) = 2048 :=
  if_neg h

/-- Nametable RAM has at least the 2048 bytes of a machine without four screens (R27). -/
theorem le_ntramSizeOf_some (m : Mapper) : 2048 ≤ ntramSizeOf (some m) := by
  by_cases h : m.mirroring = .fourScreen
  · rw [ntramSizeOf_of_fourScreen h]; omega
  · rw [ntramSizeOf_of_not_fourScreen h]

section factory
variable {id : Byte} {s : State}

theorem exec_mapFactory_of_invalid (h : s.cartridge.validates = false) :
    exec (.mapFactory id) s = .next { s with reply := .factory .invalid } := by
  have hv : ({ s.cartridge with mapperId := id } : Metadata).validates = false := h
  show execMapFactory id s = _
  rw [execMapFactory, factory, hv]
  rfl

theorem exec_mapFactory_of_unsupported (h : s.cartridge.validates = true) (hid : regsOf id = none) :
    exec (.mapFactory id) s = .next { s with reply := .factory .unsupported } := by
  have hv : ({ s.cartridge with mapperId := id } : Metadata).validates = true := h
  show execMapFactory id s = _
  rw [execMapFactory, factory, hv, if_pos rfl, hid]
  rfl

theorem exec_mapFactory_of_ok {regs : MapperRegs} (h : s.cartridge.validates = true) (hid : regsOf id = some regs) :
    exec (.mapFactory id) s = .next ((install s (s.cartridge.construct regs)).setReply (.factory .ok)) := by
  have hv : ({ s.cartridge with mapperId := id } : Metadata).validates = true := h
  show execMapFactory id s = _
  rw [execMapFactory, factory, hv, if_pos rfl, hid]
  rfl

end factory

/-- The topology query after the factory answers the new mapper's (R66, R173). -/
theorem execAll_factory_mirroring {id : Byte} {s t : State} {m : Mapper} (h : exec (.mapFactory id) s = .next t)
    (hm : t.mapper = some m) :
    execAll [.mapFactory id, .mapMirroring] s = .next { t with reply := .topology m.mirroring } := by
  rw [execAll, h]
  show execAll [.mapMirroring] t = _
  rw [execAll, exec_mapMirroring hm]
  rfl

/-- Settles O58: validation, then the identifier, then the new mapper; nametable RAM is cut to `ntramSizeOf` of it. -/
theorem factoryOutcomes : Obligations.FactoryOutcomes := by
  unfold Obligations.FactoryOutcomes
  intro id s md ok
  have hvalid : md.validates = true ↔ ok := Metadata.validates_iff
  refine ⟨fun hno => ?invalid, fun hok hid => ?unsupported, fun hok hid => ?ok⟩
  case invalid => exact exec_mapFactory_of_invalid (Bool.eq_false_iff.2 (mt hvalid.1 hno))
  case unsupported => exact exec_mapFactory_of_unsupported (hvalid.2 hok) (regsOf_of_ge hid)
  case ok =>
    obtain ⟨regs, hregs⟩ := exists_regsOf_of_lt hid
    have hexec := exec_mapFactory_of_ok (hvalid.2 hok) hregs
    have hsize := Cells.below_truncate (ntramSizeOf (some (md.construct regs))) s.ntram
    have hregs_of : ∀ {i r}, id = i → regsOf i = some r → regs = r := fun h hi =>
      Option.some.inj ((h ▸ hregs).symm.trans hi)
    refine ⟨md.construct regs, Cells.truncate (ntramSizeOf (some (md.construct regs))) s.ntram, hexec, rfl, rfl, rfl,
      fun _ => rfl, fun j => ?chr, fun h => hregs_of h rfl, fun h => hregs_of h rfl, fun h => hregs_of h rfl,
      fun h => ⟨Mmc1.initial, hregs_of h rfl, rfl, rfl, rfl, rfl, rfl, rfl, fun _ => rfl⟩,
      fun j hj => Cells.get_truncate _ (hj.trans_le (le_ntramSizeOf_some _)) _,
      _, execAll_factory_mirroring hexec rfl, fun hfour => ?four, fun hnot => ?not⟩
    case chr => exact apply_ite (Memory.get · j) _ _ _
    case four => exact ntramSizeOf_of_fourScreen (Reply.topology.inj hfour) ▸ hsize
    case not => exact ntramSizeOf_of_not_fourScreen (fun h => hnot (congrArg Reply.topology h)) ▸ hsize

end Sys2Proof.Machine
end

section
/-! PROOFS. The register window (41_ppu_registers.md): the fields a port write puts into `t`, the status byte by its bits,
what the PPUDATA port and an OAM DMA do, and the statements about the window settled from them. -/

namespace Sys2Proof.Machine

/-! ## The fields of `t` after a port write (R101, R109, R110) -/

theorem tAfterCtrl_getLsbD (t : BitVec 15) (d : Byte) (j : Nat) :
    (tAfterCtrl t d).getLsbD j =
      (if j = 10 then d.getLsbD 0 else if j = 11 then d.getLsbD 1 else t.getLsbD j) := by
  by_cases hj : j < 15
  case pos => interval_cases j <;> simp [tAfterCtrl, ctrlNt]
  case neg =>
    have hge : 15 ≤ j := Nat.not_lt.1 hj
    rw [BitVec.getLsbD_of_ge _ _ hge, if_neg (by omega), if_neg (by omega), BitVec.getLsbD_of_ge _ _ hge]

theorem tAfterScrollX_eq_append (t : BitVec 15) (d : Byte) :
    tAfterScrollX t d = t.extractLsb' 5 10 ++ d.extractLsb' 3 5 := by
  apply BitVec.eq_of_getLsbD_eq
  intro i hi
  rw [BitVec.getLsbD_append]
  interval_cases i <;> simp [tAfterScrollX]

theorem tAfterScrollY_eq_append (t : BitVec 15) (d : Byte) :
    tAfterScrollY t d = d.extractLsb' 0 3 ++ t.extractLsb' 10 2 ++ d.extractLsb' 3 5 ++ t.extractLsb' 0 5 := by
  apply BitVec.eq_of_getLsbD_eq
  intro i hi
  rw [BitVec.getLsbD_append, BitVec.getLsbD_append, BitVec.getLsbD_append]
  interval_cases i <;> simp [tAfterScrollY]

theorem tAfterAddrHi_eq_append (t : BitVec 15) (d : Byte) :
    tAfterAddrHi t d = 0#1 ++ d.extractLsb' 0 6 ++ t.extractLsb' 0 8 := by
  apply BitVec.eq_of_getLsbD_eq
  intro i hi
  rw [BitVec.getLsbD_append, BitVec.getLsbD_append]
  interval_cases i <;> simp [tAfterAddrHi]

theorem tAfterAddrLo_eq_append (t : BitVec 15) (d : Byte) : tAfterAddrLo t d = t.extractLsb' 8 7 ++ d := by
  apply BitVec.eq_of_getLsbD_eq
  intro i hi
  rw [BitVec.getLsbD_append]
  interval_cases i <;> simp [tAfterAddrLo]

theorem tAfterScrollX_toNat (t : BitVec 15) (d : Byte) :
    (tAfterScrollX t d).toNat = t.toNat / 32 * 32 + d.toNat / 8 := by
  rw [tAfterScrollX_eq_append]
  refine (append_toNat _ _).trans ?_
  rw [extract_toNat, extract_toNat]
  omega

theorem fineXOf_toNat (d : Byte) : (fineXOf d).toNat = d.toNat % 8 := by
  rw [fineXOf, extract_toNat, pow_zero, Nat.div_one]; rfl

theorem tAfterScrollY_toNat (t : BitVec 15) (d : Byte) :
    (tAfterScrollY t d).toNat =
      d.toNat % 8 * 4096 + t.toNat / 1024 % 4 * 1024 + d.toNat / 8 * 32 + t.toNat % 32 := by
  rw [tAfterScrollY_eq_append]
  refine (append_toNat _ _).trans ?_
  simp only [append_toNat, extract_toNat]
  omega

theorem tAfterAddrHi_toNat (t : BitVec 15) (d : Byte) :
    (tAfterAddrHi t d).toNat = d.toNat % 64 * 256 + t.toNat % 256 := by
  rw [tAfterAddrHi_eq_append]
  refine (append_toNat _ _).trans ?_
  simp only [append_toNat, extract_toNat, BitVec.toNat_ofNat]
  omega

theorem tAfterAddrLo_toNat (t : BitVec 15) (d : Byte) :
    (tAfterAddrLo t d).toNat = t.toNat / 256 * 256 + d.toNat := by
  rw [tAfterAddrLo_eq_append]
  refine (append_toNat _ _).trans ?_
  rw [extract_toNat]
  omega

/-! ## Reads and peeks (R99, R100, R117) -/

/-- Latching the latch changes nothing: a read of a write-only register is its peek. -/
theorem windowRead_ioLatch (s : State) : windowRead s s.ppu.ioLatch = answer s s.ppu.ioLatch := rfl

/-- Settles O35: every one of these reads answers the io latch. -/
theorem writeOnlyReadsAndOutsideWindow : Obligations.WriteOnlyReadsAndOutsideWindow := by
  unfold Obligations.WriteOnlyReadsAndOutsideWindow
  intro k a d s latch
  have hread : writeOnlyRead s = latch := windowRead_ioLatch s
  have hpeek : writeOnlyPeek s = latch := rfl
  exact ⟨hread, hpeek, hread, hpeek, hread, hpeek, hread, hpeek, hread, hpeek, hpeek, hpeek, hpeek, hpeek, rfl⟩

/-- A read that latches the byte its peek answers: the peek answers alike, and the read changes no more than the latch. -/
theorem peek_of_windowRead {r p : Instr} {s t : State} {b : Byte} (hr : exec r s = windowRead s b)
    (hp : exec p s = answer s b) (h : exec r s = .next t) :
    exec p s = .next { s with reply := t.reply } ∧
      t = { s with ppu := { s.ppu with ioLatch := t.ppu.ioLatch }, reply := t.reply } := by
  obtain rfl : (s.latch b).setReply (.byte b) = t := windowRead_eq_next.1 (hr.symm.trans h)
  exact ⟨hp, rfl⟩

/-! ## The status byte (R103, R104) -/

theorem statusByte_eq_append (p : Ppu) :
    statusByte p =
      BitVec.ofBool p.vblank ++ BitVec.ofBool p.s0hit ++ BitVec.ofBool p.overflow ++ p.ioLatch.extractLsb' 0 5 := by
  apply BitVec.eq_of_getLsbD_eq
  intro i hi
  rw [BitVec.getLsbD_append, BitVec.getLsbD_append, BitVec.getLsbD_append]
  interval_cases i <;> simp [statusByte]

theorem statusByte_toNat (p : Ppu) :
    (statusByte p).toNat =
      p.vblank.toNat * 128 + p.s0hit.toNat * 64 + p.overflow.toNat * 32 + p.ioLatch.toNat % 32 := by
  rw [statusByte_eq_append]
  refine (append_toNat _ _).trans ?_
  simp only [append_toNat, extract_toNat, BitVec.toNat_ofBool]
  omega

/-- Settles O39: both rows answer `statusByte`, whose bits have the weights of R103. -/
theorem statusReadAndPeek : Obligations.StatusReadAndPeek := by
  unfold Obligations.StatusReadAndPeek
  intro k s
  exact ⟨statusByte s.ppu, statusByte_toNat s.ppu, rfl, rfl⟩

/-! ## The plain registers and PPUCTRL (R101, R102, R105, R106) -/

/-- Settles O38: each write is the io latch and one field, or none. -/
theorem plainRegisterWrites : Obligations.PlainRegisterWrites := by
  unfold Obligations.PlainRegisterWrites
  intro k d s
  exact ⟨rfl, rfl, rfl⟩

theorem nmiOnCtrlWrite_iff {cfg : Params} {p : Ppu} {d : Byte} :
    nmiOnCtrlWrite cfg p d = true ↔
      cfg.nmiOnCtrlEnable = true ∧ p.ctrl.getLsbD 7 = false ∧ d.getLsbD 7 = true ∧ p.vblank = true := by
  simp only [nmiOnCtrlWrite, ctrlNmi, Bool.and_eq_true, Bool.not_eq_true', and_assoc]

/-- Settles O37: with the signal or without it, the write sets the same fields. -/
theorem ppuctrlWrite : Obligations.PpuctrlWrite := by
  unfold Obligations.PpuctrlWrite
  intro k d s
  refine ⟨tAfterCtrl s.ppu.t d, ?_, tAfterCtrl_getLsbD s.ppu.t d⟩
  show done (if nmiOnCtrlWrite s.cfg s.ppu d = true then _ else _) = _
  simp only [nmiOnCtrlWrite_iff]
  split
  · rfl
  · rfl

/-! ## OAMDATA (R107, R108) -/

/-- Settles O40: `Memory.set` at `oam_addr`, which then counts up modulo 256. -/
theorem oamdataPort : Obligations.OamdataPort := by
  unfold Obligations.OamdataPort
  intro k d s r
  exact ⟨rfl, rfl, s.oam.set s.ppu.oamAddr.toNat d, s.ppu.oamAddr + 1#8, rfl, BitVec.toNat_add _ _,
    fun j => Memory.get_set _ _ j d⟩

/-! ## PPUSCROLL and PPUADDR (R109, R110) -/

section toggle
variable (k : BitVec 10) (d : Byte)

theorem exec_ppuscrollW (s : State) :
    exec (.ppuscrollW k d) s = done (s.setPpu (scrollWrite (s.latch d).ppu d)) := rfl

theorem exec_ppuaddrW (s : State) :
    exec (.ppuaddrW k d) s = done (s.setPpu (addrWrite (s.latch d).ppu d)) := rfl

theorem scrollWrite_first {p : Ppu} (h : p.w = false) :
    scrollWrite p d = { p with t := tAfterScrollX p.t d, x := fineXOf d, w := true } := by
  rw [scrollWrite, if_neg (Bool.eq_false_iff.1 h)]

theorem scrollWrite_second {p : Ppu} (h : p.w = true) :
    scrollWrite p d = { p with t := tAfterScrollY p.t d, w := false } := by
  rw [scrollWrite, if_pos h]

theorem scrollWrite_w (p : Ppu) : (scrollWrite p d).w = !p.w := by
  cases h : p.w with
  | false => rw [scrollWrite_first d h]; rfl
  | true => rw [scrollWrite_second d h]; rfl

theorem exec_ppuscrollW_flips (s : State) :
    ∃ t, exec (.ppuscrollW k d) s = .next t ∧ t.ppu.w = !s.ppu.w :=
  ⟨_, rfl, scrollWrite_w d (s.latch d).ppu⟩

theorem addrWrite_first {p : Ppu} (h : p.w = false) :
    addrWrite p d = { p with t := tAfterAddrHi p.t d, w := true } := by
  rw [addrWrite, if_neg (Bool.eq_false_iff.1 h)]

theorem addrWrite_second {p : Ppu} (h : p.w = true) :
    addrWrite p d = { p with t := tAfterAddrLo p.t d, v := tAfterAddrLo p.t d, w := false } := by
  rw [addrWrite, if_pos h]

end toggle

/-- Settles O41: the toggle picks the write, and each write flips it. -/
theorem scrollPair : Obligations.ScrollPair := by
  unfold Obligations.ScrollPair
  intro k d s
  refine ⟨fun hw => ?first, fun hw => ?second, fun k₂ d₂ => ?pair⟩
  case first =>
    refine ⟨tAfterScrollX s.ppu.t d, fineXOf d, ?_, tAfterScrollX_toNat s.ppu.t d, fineXOf_toNat d⟩
    rw [exec_ppuscrollW, scrollWrite_first (p := (s.latch d).ppu) d hw]
    rfl
  case second =>
    refine ⟨tAfterScrollY s.ppu.t d, ?_, tAfterScrollY_toNat s.ppu.t d⟩
    rw [exec_ppuscrollW, scrollWrite_second (p := (s.latch d).ppu) d hw]
    rfl
  case pair =>
    obtain ⟨t, hexec, ht⟩ := exec_ppuscrollW_flips k d s
    obtain ⟨u, hexec₂, hu⟩ := exec_ppuscrollW_flips k₂ d₂ t
    exact ⟨u, execAll_cons_eq_next.2 ⟨t, hexec, execAll_cons_eq_next.2 ⟨u, hexec₂, rfl⟩⟩,
      by rw [hu, ht, Bool.not_not]⟩

/-- Settles O42: the toggle picks the write. -/
theorem addressPair : Obligations.AddressPair := by
  unfold Obligations.AddressPair
  intro k d s
  refine ⟨fun hw => ?first, fun hw => ?second⟩
  case first =>
    refine ⟨tAfterAddrHi s.ppu.t d, ?_, tAfterAddrHi_toNat s.ppu.t d⟩
    rw [exec_ppuaddrW, addrWrite_first (p := (s.latch d).ppu) d hw]
    rfl
  case second =>
    refine ⟨tAfterAddrLo s.ppu.t d, ?_, tAfterAddrLo_toNat s.ppu.t d⟩
    rw [exec_ppuaddrW, addrWrite_second (p := (s.latch d).ppu) d hw]
    rfl

/-! ## PPUDATA: the address and its increment (R111) -/

theorem busAddr_eq_ofNat (v : BitVec 15) : busAddr v = BitVec.ofNat 14 v.toNat := by
  apply BitVec.eq_of_toNat_eq
  rw [busAddr, extract_toNat, pow_zero, Nat.div_one, BitVec.toNat_ofNat]

theorem vInc_toNat (ctrl : Byte) (v : BitVec 15) :
    (vInc ctrl v).toNat = (v.toNat + (if ctrl.getLsbD 2 then 32 else 1)) % 32768 := by
  rw [vInc, BitVec.toNat_add, ctrlInc]
  split
  · rfl
  · rfl

/-! ## PPUDATA reads and peeks (R112 to R114) -/

section dataPort
variable {s : State}

theorem ppudataReadEffect_unbuffered (h : s.cfg.ppudataReadBuffered = false) :
    ppudataReadEffect s =
      (busRead s (busAddr s.ppu.v)).map fun b => (b, s.setPpu { s.ppu with v := vInc s.ppu.ctrl s.ppu.v }) := by
  rw [ppudataReadEffect, if_neg (Bool.eq_false_iff.1 h)]

theorem ppudataReadEffect_buffered_below (h : s.cfg.ppudataReadBuffered = true)
    (ha : (busAddr s.ppu.v).toNat < 0x3F00) :
    ppudataReadEffect s =
      (busRead s (busAddr s.ppu.v)).map fun b =>
        (s.ppu.readBuffer, s.setPpu { s.ppu with readBuffer := b, v := vInc s.ppu.ctrl s.ppu.v }) := by
  rw [ppudataReadEffect, if_pos h, if_pos ha]

theorem ppudataReadEffect_buffered_palette (h : s.cfg.ppudataReadBuffered = true)
    (ha : 0x3F00 ≤ (busAddr s.ppu.v).toNat) :
    ppudataReadEffect s =
      (busRead s (busAddr s.ppu.v - 0x1000#14)).map fun b =>
        (paletteRead s (busAddr s.ppu.v), s.setPpu { s.ppu with readBuffer := b, v := vInc s.ppu.ctrl s.ppu.v }) := by
  rw [ppudataReadEffect, if_pos h, if_neg (Nat.not_lt.2 ha)]

theorem ppudataPeek_buffered_below (h : s.cfg.ppudataReadBuffered = true)
    (ha : (busAddr s.ppu.v).toNat < 0x3F00) : ppudataPeek s = some s.ppu.readBuffer :=
  if_pos (by rw [h, decide_eq_true ha]; rfl)

theorem ppudataPeek_of_bus (h : s.cfg.ppudataReadBuffered = false ∨ 0x3F00 ≤ (busAddr s.ppu.v).toNat) :
    ppudataPeek s = busRead s (busAddr s.ppu.v) := by
  refine if_neg ?_
  rw [Bool.and_eq_true, decide_eq_true_eq]
  rintro ⟨hbuf, ha⟩
  rcases h with hunbuf | hge
  · rw [hunbuf] at hbuf; cases hbuf
  · omega

/-- Buffered or not, the peek answers the byte of the read that completes (R99). -/
theorem ppudataPeek_of_readEffect {b : Byte} {u : State} (h : ppudataReadEffect s = some (b, u)) :
    ppudataPeek s = some b := by
  cases hbuf : s.cfg.ppudataReadBuffered with
  | false =>
    rw [ppudataReadEffect_unbuffered hbuf, Option.map_eq_some_iff] at h
    obtain ⟨b', hbus, heq⟩ := h
    obtain rfl : b' = b := congrArg Prod.fst heq
    rw [ppudataPeek_of_bus (.inl hbuf), hbus]
  | true =>
    by_cases ha : (busAddr s.ppu.v).toNat < 0x3F00
    · rw [ppudataReadEffect_buffered_below hbuf ha, Option.map_eq_some_iff] at h
      obtain ⟨_, -, heq⟩ := h
      rw [ppudataPeek_buffered_below hbuf ha]
      exact congrArg (some ·.1) heq
    · have hpal : 0x3F00 ≤ (busAddr s.ppu.v).toNat := Nat.not_lt.1 ha
      rw [ppudataReadEffect_buffered_palette hbuf hpal, Option.map_eq_some_iff] at h
      obtain ⟨_, -, heq⟩ := h
      rw [ppudataPeek_of_bus (.inr hpal), busRead_palette s hpal]
      exact congrArg (some ·.1) heq

theorem exec_ppudataP_of_exec_ppudataR {k : BitVec 10} {t : State} (h : exec (.ppudataR k) s = .next t) :
    exec (.ppudataP k) s = .next { s with reply := t.reply } := by
  obtain ⟨⟨b, u⟩, heffect, hread⟩ := orNoCartridge_eq_next.1 h
  obtain rfl : (u.latch b).setReply (.byte b) = t := windowRead_eq_next.1 hread
  exact orNoCartridge_eq_next.2 ⟨b, ppudataPeek_of_readEffect heffect, rfl⟩

theorem exec_ppudataR_unbuffered (k : BitVec 10) {b : Byte} (h : s.cfg.ppudataReadBuffered = false)
    (hbus : busRead s (busAddr s.ppu.v) = some b) :
    exec (.ppudataR k) s = .next
      { s with ppu := { s.ppu with v := vInc s.ppu.ctrl s.ppu.v, ioLatch := b }, reply := .byte b } := by
  have heffect : ppudataReadEffect s = some (b, s.setPpu { s.ppu with v := vInc s.ppu.ctrl s.ppu.v }) := by
    rw [ppudataReadEffect_unbuffered h, hbus, Option.map_some]
  exact orNoCartridge_eq_next.2 ⟨_, heffect, rfl⟩

end dataPort

/-- Settles O36: but for PPUSTATUS and PPUDATA a read is `windowRead` of the byte its peek answers; the status byte does
not depend on what the read clears, and PPUDATA is `exec_ppudataP_of_exec_ppudataR`. -/
theorem peekReturnsWhatReadReturns : Obligations.PeekReturnsWhatReadReturns := by
  unfold Obligations.PeekReturnsWhatReadReturns
  intro r p s t hpeek hread
  unfold windowPeek? at hpeek
  split at hpeek <;> cases hpeek
  case h_3 k => -- PPUSTATUS
    obtain rfl := windowRead_eq_next.1 hread
    exact ⟨rfl, fun hne => absurd rfl (hne k)⟩
  case h_5 => -- OAMDATA
    exact And.imp_right (fun hframe _ _ => hframe) (peek_of_windowRead (b := oamdataByte s) rfl rfl hread)
  case h_8 k => -- PPUDATA
    exact ⟨exec_ppudataP_of_exec_ppudataR hread, fun _ hne => absurd rfl (hne k)⟩
  all_goals exact And.imp_right (fun hframe _ _ => hframe) (peek_of_windowRead (b := s.ppu.ioLatch) rfl rfl hread)

/-- Settles O43: the unbuffered read is `exec_ppudataR_unbuffered`; the address pair puts `a` into `v` (R110), and the bus
read does not depend on what the pair writes. -/
theorem dataPortRead : Obligations.DataPortRead := by
  unfold Obligations.DataPortRead
  refine ⟨fun k s r hunbuf hbus => ?read, fun k₁ k₂ k₃ hi lo a s b hunbuf hw ha hbus => ?pair⟩
  case read =>
    rw [← busAddr_eq_ofNat] at hbus
    exact ⟨_, exec_ppudataR_unbuffered k hunbuf hbus, vInc_toNat s.ppu.ctrl s.ppu.v⟩
  case pair =>
    obtain ⟨t₁, hexec₁, ht₁⟩ := (addressPair k₁ hi s).1 hw
    obtain ⟨t₂, hexec₂, ht₂⟩ := (addressPair k₂ lo
      { s with ppu := { s.ppu with ioLatch := hi, t := t₁, w := true }, reply := .none }).2 rfl
    have ht : t₂.toNat = a.toNat := by
      rw [ht₂, ha]
      show t₁.toNat / 256 * 256 + lo.toNat = _
      omega
    have haddr : busAddr t₂ = a := by rw [busAddr_eq_ofNat, ht, BitVec.ofNat_toNat, BitVec.setWidth_eq]
    have hexec₃ := exec_ppudataR_unbuffered (b := b) k₃ (s :=
      { s with ppu := { s.ppu with ioLatch := lo, t := t₂, v := t₂, w := false }, reply := .none }) hunbuf
        ((busRead_congr rfl rfl rfl rfl _).trans (haddr ▸ hbus))
    refine ⟨_, execAll_cons_eq_next.2 ⟨_, hexec₁, execAll_cons_eq_next.2 ⟨_, hexec₂,
      execAll_cons_eq_next.2 ⟨_, hexec₃, rfl⟩⟩⟩, rfl, ?_⟩
    refine (vInc_toNat s.ppu.ctrl t₂).trans ?_
    rw [ht]
    exact Nat.mod_eq_of_lt (by split <;> omega)

/-! ## PPUDATA writes (R115) -/

/-- A bus write that completes, by the bytes it stores to (R41). -/
theorem busWrite_stores {s : State} {a : BusAddr} (h : s.mapper.isSome = true ∨ 0x3F00 ≤ a.toNat) (d : Byte) :
    ∃ (mapper : Option Mapper) (ntram palette : Memory),
      busWrite s a d = some { s with mapper := mapper, ntram := ntram, palette := palette } ∧
      mapper = (if a.toNat ≤ 0x1FFF then s.mapper.map (fun m => m.write (BitVec.ofNat 16 a.toNat) d) else s.mapper) ∧
      (∀ j, ntram.get j =
        (if 0x2000 ≤ a.toNat ∧ a.toNat ≤ 0x3EFF ∧ s.mapper.map (fun m => ntIndex a m.mirroring) = some j then d
         else s.ntram.get j)) ∧
      (∀ j, palette.get j = (if 0x3F00 ≤ a.toNat ∧ j = palIndex a then d else s.palette.get j)) := by
  obtain ⟨t, ht⟩ : ∃ t, busWrite s a d = some t := by
    rw [← Option.isSome_iff_exists, busWrite_isSome, reaches_eq_true]; exact h
  rw [ht]
  rcases busWrite_eq_some ht with ⟨hi, m, hm, rfl⟩ | ⟨lo, hi, m, hm, rfl⟩ | ⟨lo, rfl⟩
  case inl =>
    refine ⟨_, s.ntram, s.palette, rfl, ?_, fun j => (if_neg (by omega)).symm, fun j => (if_neg (by omega)).symm⟩
    rw [if_pos hi, hm, BitVec.ofNat_toNat]
    rfl
  case inr.inl =>
    refine ⟨s.mapper, _, s.palette, rfl, (if_neg (by omega)).symm, fun j => ?_, fun j => (if_neg (by omega)).symm⟩
    rw [Memory.get_set, hm]
    exact if_congr (by simp only [lo, hi, true_and, Option.map_some, Option.some_inj, eq_comm]) rfl rfl
  case inr.inr =>
    refine ⟨s.mapper, s.ntram, _, rfl, (if_neg (by omega)).symm, fun j => (if_neg (by omega)).symm, fun j => ?_⟩
    rw [Memory.get_set]
    exact if_congr (by simp only [lo, true_and]) rfl rfl

/-- Settles O45: `busWrite_stores` at `v[13:0]`, on the state with the io latch set. -/
theorem dataPortWrite : Obligations.DataPortWrite := by
  unfold Obligations.DataPortWrite
  intro k d s hreach a
  have haddr : busAddr s.ppu.v = a := busAddr_eq_ofNat s.ppu.v
  obtain ⟨mapper, ntram, palette, hwrite, hstores⟩ := busWrite_stores (s := s.latch d) (a := a)
    (hreach.imp_right fun h => by rwa [BitVec.toNat_ofNat]) d
  have heffect := congrArg (Option.map fun t : State => t.setPpu { t.ppu with v := vInc t.ppu.ctrl t.ppu.v }) hwrite
  rw [← haddr] at heffect
  exact ⟨_, mapper, ntram, palette, orNoCartridge_eq_next.2 ⟨_, heffect, rfl⟩, vInc_toNat s.ppu.ctrl s.ppu.v, hstores⟩

/-! ## OAM DMA (R116) -/

theorem dmaFromWindow_iff {page : Byte} : dmaFromWindow page = true ↔ 0x20 ≤ page.toNat ∧ page.toNat ≤ 0x3F := by
  rw [dmaFromWindow, beq_iff_eq, extract_eq_iff, BitVec.toNat_ofNat]
  omega

theorem dmaStart_eq (s : State) :
    dmaStart s = if s.cfg.dmaDestStart = .oamaddr then s.ppu.oamAddr.toNat else 0 := by
  unfold dmaStart
  cases s.cfg.dmaDestStart with
  | oamaddr => rfl
  | zero => rfl

theorem dmaSource_eq (page : Byte) {i : Nat} (hi : i < 256) :
    dmaSource page (BitVec.ofNat 8 i) = BitVec.ofNat 16 (page.toNat * 256 + i) := by
  apply BitVec.eq_of_toNat_eq
  refine (append_toNat _ _).trans ?_
  rw [BitVec.toNat_ofNat, BitVec.toNat_ofNat]
  omega

section dma
variable (s : State) (page : Byte) (oam : Memory)

theorem exec_oamdmaW :
    exec (.oamdmaW page) s =
      if dmaFromWindow page then .refused .dmaFromWindow
      else done ((s.record (.dmaTransfer page)).setOam (dmaCopy s page (List.range 256) s.oam)) := rfl

theorem dmaCopy_range_succ (n : Nat) :
    dmaCopy s page (List.range (n + 1)) oam =
      (dmaCopy s page (List.range n) oam).set ((dmaStart s + n) % 256)
        (cpuMemRead s (dmaSource page (BitVec.ofNat 8 n))) := by
  rw [dmaCopy, List.range_succ, List.foldl_append]
  rfl

/-- No two of the 256 writes meet, so each byte stays as it was written. -/
theorem dmaCopy_get {n i : Nat} (hn : n ≤ 256) (hi : i < n) :
    (dmaCopy s page (List.range n) oam).get ((dmaStart s + i) % 256) =
      cpuMemRead s (dmaSource page (BitVec.ofNat 8 i)) := by
  induction n with
  | zero => cases hi
  | succ n ih =>
    rw [dmaCopy_range_succ, Memory.get_set]
    by_cases hlast : i = n
    · rw [hlast, if_pos rfl]
    · rw [if_neg (by omega)]
      exact ih (by omega) (by omega)

theorem dmaCopy_get_of_ge (n : Nat) {j : Nat} (hj : 256 ≤ j) :
    (dmaCopy s page (List.range n) oam).get j = oam.get j := by
  induction n with
  | zero => rfl
  | succ n ih => rw [dmaCopy_range_succ, Memory.get_set_other _ (by omega), ih]

end dma

/-- Settles O46: the refusal is `dmaFromWindow_iff`, and the bytes are those of `dmaCopy` over the whole page. -/
theorem oamDma : Obligations.OamDma := by
  unfold Obligations.OamDma
  intro d s
  rw [exec_oamdmaW, ← dmaStart_eq]
  refine ⟨fun hpage => if_pos (dmaFromWindow_iff.2 hpage), fun hpage => ⟨dmaCopy s d (List.range 256) s.oam, ?result,
    fun i hi => ?copied, fun j hj => dmaCopy_get_of_ge s d s.oam 256 hj⟩⟩
  case result =>
    rw [if_neg (mt dmaFromWindow_iff.1 hpage)]
    generalize dmaCopy s d (List.range 256) s.oam = oam
    rfl
  case copied => rw [← dmaSource_eq d hi]; exact dmaCopy_get s d s.oam (Nat.le_refl 256) hi

end Sys2Proof.Machine
end

section
/-! PROOFS. The position and the flag events of a tick (42_ppu_timing.md): the advance, the dots at which a part of
`DotWork` does nothing, and the statements settled from them. -/

namespace Sys2Proof.Machine

/-! ## The advance (R126) -/

theorem advance_position (cfg : Params) (en : Bool) (p : Ppu) :
    ((advance cfg en p).scanline, (advance cfg en p).dot, (advance cfg en p).frameCount, (advance cfg en p).oddFrame) =
      (if p.scanline = 261 ∧ p.dot = 339 ∧ cfg.oddFrameSkip = true ∧ p.oddFrame = true ∧ en = true then
         (0, 0, p.frameCount + 1, !p.oddFrame)
       else if p.dot = 340 then
         if p.scanline = 261 then (0, 0, p.frameCount + 1, !p.oddFrame)
         else (p.scanline + 1, 0, p.frameCount, p.oddFrame)
       else (p.scanline, p.dot + 1, p.frameCount, p.oddFrame)) := by
  rw [advance_eq]
  split
  · rfl
  · split
    · split <;> rfl
    · rfl

theorem advance_keeps_bounds (cfg : Params) (en : Bool) {p : Ppu} (hline : p.scanline < 262) (hdot : p.dot < 341) :
    (advance cfg en p).scanline < 262 ∧ (advance cfg en p).dot < 341 := by
  rw [advance_eq]
  split
  · exact ⟨Nat.succ_pos 261, Nat.succ_pos 340⟩
  · split
    · split
      · exact ⟨Nat.succ_pos 261, Nat.succ_pos 340⟩
      · exact ⟨by dsimp only; omega, Nat.succ_pos 340⟩
    · exact ⟨hline, by dsimp only; omega⟩

/-- Where the frame cannot end the advance writes the position alone. -/
theorem advance_frame_of_not_last {cfg : Params} {en : Bool} {p : Ppu} (h : p.scanline = 261 → p.dot < 339) :
    advance cfg en p = { p with scanline := (advance cfg en p).scanline, dot := (advance cfg en p).dot } := by
  rw [advance_eq, if_neg (by omega)]
  split
  · rw [if_neg (by omega)]
  · rfl

theorem advance_of_dot_lt {cfg : Params} {en : Bool} {p : Ppu} (h : p.dot < 339) :
    advance cfg en p = { p with dot := p.dot + 1 } := by
  rw [advance_eq, if_neg (by omega), if_neg (by omega)]

/-- The work of a dot moves no counter. -/
theorem dotWork_position {s a : State} (h : dotWork s = some a) :
    a.ppu.scanline = s.ppu.scanline ∧ a.ppu.dot = s.ppu.dot ∧ a.ppu.frameCount = s.ppu.frameCount ∧
      a.ppu.oddFrame = s.ppu.oddFrame := by
  have frame := dotWork_frame h
  unfold DotFrame at frame
  rw [frame]
  exact ⟨rfl, rfl, rfl, rfl⟩

/-- Settles O13: the work of a dot moves no counter, so a tick's position is the advance's. -/
theorem tickAdvancesPosition : Obligations.TickAdvancesPosition := by
  unfold Obligations.TickAdvancesPosition
  intro s t h
  obtain ⟨a, ha, rfl⟩ := exec_ppuTick_eq_next.1 h
  obtain ⟨hline, hdot, hcount, hodd⟩ := dotWork_position ha
  simp only [← hline, ← hdot, ← hcount, ← hodd, ← renderingEnabled_eq_true]
  exact ⟨advance_position _ _ _, advance_keeps_bounds _ _⟩

/-! ## Where a part of `DotWork` does nothing (R121, R125) -/

section parts
variable {en : Bool} {line d : Nat} (s : State)

theorem backgroundStep_of_idle (h : ¬((line < 240 ∨ line = 261) ∧ en = true)) :
    backgroundStep en line d s = some s := if_neg h

theorem pixelStep_of_idle (h : ¬(line < 240 ∧ 1 ≤ d ∧ d ≤ 256)) : pixelStep en line d s = s := if_neg h

theorem spriteStep_of_idle (visible : line < 240 → d < 64) (preRender : line = 261 → d < 257) :
    spriteStep en line d s = some s := by
  unfold spriteStep
  by_cases hline : line < 240
  · have := visible hline
    rw [if_pos hline, if_neg (by omega), if_neg (by omega), if_neg (by omega)]
  · rw [if_neg hline, if_neg (by omega)]

/-- Before dot 2 the background step does a fetch group's work and no more (R132). -/
theorem bgStep_of_le_one (h : d ≤ 1) : bgStep line d s = groupWork d s := by
  have hshift : shiftAndReload d s = s := by
    have noShift : shiftDot d = false := by simp [shiftDot]; omega
    have noReload : reloadDot d = false := by simp [reloadDot]; omega
    simp [shiftAndReload, noShift, noReload]
  have hscroll (a : State) : scrollWork d a = a := by
    simp only [scrollWork]
    rw [if_neg (by omega), if_neg (by omega)]
  have hunused (a : State) : unusedFetch d a = some a := if_neg (by omega)
  have hcopy : verticalCopy line d = id := funext fun a => if_neg (by omega)
  simp [bgStep, hshift, hscroll, hunused, hcopy]

end parts

/-- Dot 0 of every scanline (R125). -/
theorem backgroundStep_dot_zero (en : Bool) (line : Nat) (s : State) : backgroundStep en line 0 s = some s := by
  by_cases h : (line < 240 ∨ line = 261) ∧ en = true
  · exact (if_pos h).trans (bgStep_of_le_one s (Nat.zero_le 1))
  · exact backgroundStep_of_idle s h

/-- Dot 1 of the pre-render line: the nametable fetch, with rendering enabled (R132, R135). -/
theorem backgroundStep_preRender_dot_one {en : Bool} {s : State} (h : s.mapper.isSome = true ∨ en = false) :
    ∃ nt : Byte, backgroundStep en 261 1 s = some (s.setBg { s.ppu.bg with ntLatch := nt }) ∧
      (en = false → nt = s.ppu.bg.ntLatch) := by
  cases en with
  | false => exact ⟨s.ppu.bg.ntLatch, rfl, fun _ => rfl⟩
  | true =>
    obtain ⟨nt, hnt⟩ := busRead_some (h.resolve_right (by decide)) (ntFetchAddr s.ppu.v)
    refine ⟨nt, ?_, fun hen => absurd hen (by decide)⟩
    calc backgroundStep true 261 1 s
      _ = fetchNT s := bgStep_of_le_one s (Nat.le_refl 1)
      _ = some (s.setBg { s.ppu.bg with ntLatch := nt }) := by rw [fetchNT, hnt, Option.map_some]

/-! ## The flag events (R123, R124) -/

theorem vblankStart_eq (s : State) :
    vblankStart s = { s with
      ppu := { s.ppu with vblank := true },
      history := if s.ppu.ctrl.getLsbD 7 then s.history ++ [.nmiSignal] else s.history } := by
  unfold vblankStart
  by_cases h : s.ppu.ctrl.getLsbD 7 = true
  · rw [if_pos h]; exact if_pos h
  · rw [if_neg h]; exact if_neg h

theorem flagEvents_vblank {s : State} (hline : s.ppu.scanline = 241) (hdot : s.ppu.dot = 1) :
    flagEvents s = vblankStart s := if_pos ⟨hline, hdot⟩

theorem flagEvents_preRender {s : State} (hline : s.ppu.scanline = 261) (hdot : s.ppu.dot = 1) :
    flagEvents s = clearFlags s := by
  rw [flagEvents, if_neg (by omega), if_pos ⟨hline, hdot⟩]

theorem flagEvents_other {s : State} (vblank : ¬(s.ppu.scanline = 241 ∧ s.ppu.dot = 1))
    (preRender : ¬(s.ppu.scanline = 261 ∧ s.ppu.dot = 1)) : flagEvents s = s := by
  rw [flagEvents, if_neg vblank, if_neg preRender]

/-! ## The work of those dots -/

/-- At dot 0, on the lines from 240 to 260, and before dot 257 of the pre-render line, pixel output and the sprite pipeline do
nothing. -/
theorem dotWork_of_no_output {s : State} (visible : s.ppu.scanline < 240 → s.ppu.dot = 0)
    (preRender : s.ppu.scanline = 261 → s.ppu.dot < 257) :
    dotWork s = backgroundStep (renderingEnabled s.ppu.mask) s.ppu.scanline s.ppu.dot (flagEvents s) := by
  have rest (a : State) :
      spriteStep (renderingEnabled s.ppu.mask) s.ppu.scanline s.ppu.dot
        (pixelStep (renderingEnabled s.ppu.mask) s.ppu.scanline s.ppu.dot a) = some a := by
    rw [pixelStep_of_idle _ (by omega), spriteStep_of_idle _ (by omega) (by omega)]
  simp only [dotWork, rest, Option.bind_fun_some]

/-- On the lines with no rendering the flag events are all the work (R123, R125). -/
theorem dotWork_of_no_render_line {s : State} (lo : 240 ≤ s.ppu.scanline) (hi : s.ppu.scanline ≤ 260) :
    dotWork s = some (flagEvents s) := by
  rw [dotWork_of_no_output (by omega) (by omega), backgroundStep_of_idle _ (by omega)]

theorem dotWork_dot_zero {s : State} (h : s.ppu.dot = 0) : dotWork s = some s := by
  rw [dotWork_of_no_output (by omega) (by omega), flagEvents_other (by omega) (by omega), h, backgroundStep_dot_zero]

theorem dotWork_idle {s : State}
    (h : (240 ≤ s.ppu.scanline ∧ s.ppu.scanline ≤ 260 ∧ ¬(s.ppu.scanline = 241 ∧ s.ppu.dot = 1)) ∨ s.ppu.dot = 0) :
    dotWork s = some s := by
  rcases h with ⟨lo, hi, notVblank⟩ | hdot
  · rw [dotWork_of_no_render_line lo hi, flagEvents_other notVblank (by omega)]
  · exact dotWork_dot_zero hdot

theorem dotWork_preRender_dot_one {s : State} (hline : s.ppu.scanline = 261) (hdot : s.ppu.dot = 1)
    (h : s.mapper.isSome = true ∨ renderingEnabled s.ppu.mask = false) :
    ∃ nt : Byte, dotWork s = some ((clearFlags s).setBg { s.ppu.bg with ntLatch := nt }) ∧
      (renderingEnabled s.ppu.mask = false → nt = s.ppu.bg.ntLatch) := by
  rw [dotWork_of_no_output (by omega) (by omega), flagEvents_preRender hline hdot, hline, hdot]
  exact backgroundStep_preRender_dot_one (s := clearFlags s) h

/-! ## The tick -/

theorem exec_ppuTick_of_dotWork {s a : State} (h : dotWork s = some a) :
    exec .ppuTick s =
      .next ((a.setPpu (advance s.cfg (renderingEnabled s.ppu.mask) a.ppu)).setReply .none) :=
  exec_ppuTick_eq_next.2 ⟨a, h, rfl⟩

/-- No skip and no line's end comes at dot 1, so the advance is to dot 2 (R126). -/
theorem exec_ppuTick_at_dot_one {s a : State} (h : dotWork s = some a) (hdot : s.ppu.dot = 1) :
    exec .ppuTick s = .next { a with ppu := { a.ppu with dot := 2 }, reply := .none } := by
  obtain ⟨-, ha, -, -⟩ := dotWork_position h
  rw [exec_ppuTick_of_dotWork h, advance_of_dot_lt (by omega), ha, hdot]
  rfl

/-- Settles O18: at (241, 1) and (261, 1) the flag events, and the fetch of dot 1, are all the work; elsewhere on the lines
with no rendering, and at dot 0, there is none. -/
theorem flagEventsAndIdleTicks : Obligations.FlagEventsAndIdleTicks := by
  unfold Obligations.FlagEventsAndIdleTicks
  refine ⟨fun s hline hdot => ?vblank, fun s hline hdot hready => ?preRender,
    fun s hidle => ⟨dotWork_idle hidle, _, exec_ppuTick_of_dotWork (dotWork_idle hidle), ?idle⟩⟩
  case vblank =>
    have hwork := dotWork_of_no_render_line (s := s) (by omega) (by omega)
    rw [exec_ppuTick_at_dot_one hwork hdot, flagEvents_vblank hline hdot, vblankStart_eq]
  case preRender =>
    rw [← renderingEnabled_eq_false] at hready
    obtain ⟨nt, hwork, hkeep⟩ := dotWork_preRender_dot_one hline hdot hready
    exact ⟨nt, exec_ppuTick_at_dot_one hwork hdot, fun hbg hspr => hkeep (renderingEnabled_eq_false.2 ⟨hbg, hspr⟩)⟩
  case idle =>
    rw [advance_frame_of_not_last (by omega)]
    rfl

end Sys2Proof.Machine
end

section
/-! PROOFS. The scroll registers (43_ppu_render.md section 3): the increments of `v` and the copies from `t`, on the
fields of `v`. -/

namespace Sys2Proof.Machine

/-! ## `IncX` (R138) -/

theorem coarseX_eq_last_iff {v : BitVec 15} : coarseX v = 31#5 ↔ v.toNat % 32 = 31 := by
  rw [coarseX, extract_eq_iff, pow_zero, Nat.div_one]; rfl

/-- The last column: coarse X restarts and the horizontal nametable bit flips. -/
theorem incX_wrap_eq_append (v : BitVec 15) :
    (v &&& ~~~0x001F#15) ^^^ 0x0400#15 =
      v.extractLsb' 11 4 ++ ~~~ v.extractLsb' 10 1 ++ v.extractLsb' 5 5 ++ 0#5 := by
  apply BitVec.eq_of_getLsbD_eq
  intro i hi
  rw [BitVec.getLsbD_append, BitVec.getLsbD_append, BitVec.getLsbD_append]
  interval_cases i <;> simp

theorem incX_toNat_of_last {v : BitVec 15} (h : v.toNat % 32 = 31) :
    (incX v).toNat = v.toNat / 2048 * 2048 + (1 - v.toNat / 1024 % 2) * 1024 + v.toNat / 32 % 32 * 32 := by
  rw [incX, if_pos (coarseX_eq_last_iff.2 h), incX_wrap_eq_append]
  refine (append_toNat _ _).trans ?_
  simp only [append_toNat, extract_toNat, BitVec.toNat_not, BitVec.toNat_ofNat]
  omega

theorem incX_toNat_of_not_last {v : BitVec 15} (h : v.toNat % 32 ≠ 31) : (incX v).toNat = v.toNat + 1 := by
  rw [incX, if_neg (mt coarseX_eq_last_iff.1 h), BitVec.toNat_add, BitVec.toNat_ofNat]
  omega

/-! ## `IncY` (R139) -/

theorem fineY_toNat (v : BitVec 15) : (fineY v).toNat = v.toNat / 4096 := by
  rw [fineY, extract_toNat]; omega

theorem coarseY_toNat (v : BitVec 15) : (coarseY v).toNat = v.toNat / 32 % 32 := by
  rw [coarseY, extract_toNat]; rfl

/-- `IncY` within a tile row. -/
theorem incY_toNat_of_fine {v : BitVec 15} (h : v.toNat / 4096 < 7) : (incY v).toNat = v.toNat + 4096 := by
  rw [incY, fineY_toNat, if_pos h, BitVec.toNat_add, BitVec.toNat_ofNat]
  omega

theorem coarseY_and (v : BitVec 15) : coarseY (v &&& ~~~0x7000#15) = coarseY v := by
  apply BitVec.eq_of_getLsbD_eq
  intro i hi
  interval_cases i <;> simp [coarseY]

/-- `IncY` past the last row of a tile: fine Y is 0, coarse Y a new number, and the vertical nametable bit flips or
stays; the other fields are those of `v`. -/
theorem incY_of_last {v : BitVec 15} (h : v.toNat / 4096 = 7) :
    incY v = 0#3
      ++ (if coarseY v = 29#5 then ~~~ v.extractLsb' 11 1 else v.extractLsb' 11 1)
      ++ v.extractLsb' 10 1
      ++ (if coarseY v = 29#5 ∨ coarseY v = 31#5 then 0#5 else coarseY v + 1#5)
      ++ v.extractLsb' 0 5 := by
  have hfine : ¬ (fineY v).toNat < 7 := by rw [fineY_toNat]; omega
  simp only [incY, if_neg hfine, coarseY_and]
  generalize coarseY v = y
  generalize y + 1#5 = next
  apply BitVec.eq_of_getLsbD_eq
  intro i hi
  rw [BitVec.getLsbD_append, BitVec.getLsbD_append, BitVec.getLsbD_append, BitVec.getLsbD_append]
  by_cases h29 : y = 29#5
  · simp only [h29, if_true, true_or]
    interval_cases i <;> simp
  · by_cases h31 : y = 31#5
    · simp only [h31, if_true, or_true]
      interval_cases i <;> simp
    · simp only [h29, h31, if_false, or_self]
      interval_cases i <;> simp

theorem incY_toNat_of_last {v : BitVec 15} (h : v.toNat / 4096 = 7) :
    (incY v).toNat =
      (if v.toNat / 32 % 32 = 29 then 1 - v.toNat / 2048 % 2 else v.toNat / 2048 % 2) * 2048
      + v.toNat / 1024 % 2 * 1024
      + (if v.toNat / 32 % 32 = 29 ∨ v.toNat / 32 % 32 = 31 then 0 else v.toNat / 32 % 32 + 1) * 32
      + v.toNat % 32 := by
  have h29 : coarseY v = 29#5 ↔ v.toNat / 32 % 32 = 29 := extract_eq_iff
  have h31 : coarseY v = 31#5 ↔ v.toNat / 32 % 32 = 31 := extract_eq_iff
  rw [incY_of_last h]
  refine (append_toNat _ _).trans ?_
  simp only [append_toNat, h29, h31, apply_ite BitVec.toNat, BitVec.toNat_not, BitVec.toNat_add, extract_toNat,
    BitVec.toNat_ofNat, coarseY_toNat]
  split_ifs <;> omega

/-! ## `CopyX` and `CopyY` (R140, R141) -/

theorem copyX_getLsbD (t v : BitVec 15) (j : Nat) :
    (copyX t v).getLsbD j = (if j < 5 ∨ j = 10 then t.getLsbD j else v.getLsbD j) := by
  by_cases hj : j < 15
  case pos => interval_cases j <;> simp [copyX]
  case neg =>
    have hge : 15 ≤ j := Nat.not_lt.1 hj
    rw [BitVec.getLsbD_of_ge _ _ hge, if_neg (by omega), BitVec.getLsbD_of_ge _ _ hge]

theorem copyY_getLsbD (t v : BitVec 15) (j : Nat) :
    (copyY t v).getLsbD j = (if j < 5 ∨ j = 10 then v.getLsbD j else t.getLsbD j) := by
  by_cases hj : j < 15
  case pos => interval_cases j <;> simp [copyY]
  case neg =>
    have hge : 15 ≤ j := Nat.not_lt.1 hj
    rw [BitVec.getLsbD_of_ge _ _ hge, if_neg (by omega), BitVec.getLsbD_of_ge _ _ hge]

/-- Settles O23: the increments by the number of `v` in each of their cases, the copies bit by bit. -/
theorem scrollIncrementsAndCopies : Obligations.ScrollIncrementsAndCopies := by
  unfold Obligations.ScrollIncrementsAndCopies
  refine ⟨fun v => ?incX, fun v => ?incY, fun t v j => ⟨copyX_getLsbD t v j, copyY_getLsbD t v j⟩⟩
  case incX =>
    by_cases hlast : v.toNat % 32 = 31
    · rw [incX_toNat_of_last hlast]; omega
    · rw [incX_toNat_of_not_last hlast]; omega
  case incY =>
    by_cases hlast : v.toNat / 4096 = 7
    · simp only [incY_toNat_of_last hlast, hlast, true_and]
      split_ifs <;> omega
    · simp only [incY_toNat_of_fine (v := v) (by omega), hlast, false_and, if_false]
      omega

end Sys2Proof.Machine
end

section
/-! PROOFS. A tick by its steps (42_ppu_timing.md, R121): what each field of the next state is taken from, and a tick
with rendering disabled (R131). -/

namespace Sys2Proof.Machine

/-! ## The steps of a tick -/

theorem flagEvents_bg (s : State) : (flagEvents s).ppu.bg = s.ppu.bg := by rw [flagEvents_frame]

theorem flagEvents_v (s : State) : (flagEvents s).ppu.v = s.ppu.v := by rw [flagEvents_frame]

theorem flagEvents_ptAddr (s : State) : ptAddr (flagEvents s) = ptAddr s := by
  unfold ptAddr
  rw [flagEvents_frame]

theorem flagEvents_busRead (s : State) (a : BusAddr) : busRead (flagEvents s) a = busRead s a := by
  rw [flagEvents_frame]
  exact busRead_congr rfl rfl rfl rfl a

/-- A tick from `s` to `t` by the states between its steps: `a` after the flag events and the background step, `c` after
pixel output and the sprite pipeline (R121). -/
structure TickSteps (s a c t : State) : Prop where
  background :
    backgroundStep (renderingEnabled s.ppu.mask) s.ppu.scanline s.ppu.dot (flagEvents s) = some a
  sprites :
    spriteStep (renderingEnabled s.ppu.mask) s.ppu.scanline s.ppu.dot
      (pixelStep (renderingEnabled s.ppu.mask) s.ppu.scanline s.ppu.dot a) = some c
  advanced : t = (c.setPpu (advance s.cfg (renderingEnabled s.ppu.mask) c.ppu)).setReply .none

theorem exec_ppuTick_steps {s t : State} : exec .ppuTick s = .next t ↔ ∃ a c, TickSteps s a c t := by
  rw [exec_ppuTick_eq_next]
  constructor
  · rintro ⟨c, hwork, ht⟩
    obtain ⟨a, hbg, hspr⟩ := dotWork_eq_some.1 hwork
    exact ⟨a, c, hbg, hspr, ht⟩
  · rintro ⟨a, c, hbg, hspr, ht⟩
    exact ⟨c, dotWork_eq_some.2 ⟨a, hbg, hspr⟩, ht⟩

section steps
variable {s a c t : State} (h : TickSteps s a c t)
include h

/-- Before pixel output a tick has written the flags, the history, the background pipeline and `v`. -/
theorem TickSteps.before_pixel :
    a = { s with
          ppu := { s.ppu with vblank := (flagEvents s).ppu.vblank, s0hit := (flagEvents s).ppu.s0hit,
                              overflow := (flagEvents s).ppu.overflow, bg := a.ppu.bg, v := a.ppu.v },
          history := (flagEvents s).history } := by
  have hflags := flagEvents_frame s
  have hbg := backgroundStep_frame h.background
  unfold BgFrame at hbg
  rw [hbg, hflags]
  rfl

/-- From pixel output on a tick leaves the background pipeline and the registers of the window alone. -/
theorem TickSteps.after_pixel :
    t.ppu = { a.ppu with
              s0hit := (pixelStep (renderingEnabled s.ppu.mask) s.ppu.scanline s.ppu.dot a).ppu.s0hit,
              framebuffer := (pixelStep (renderingEnabled s.ppu.mask) s.ppu.scanline s.ppu.dot a).ppu.framebuffer,
              overflow := c.ppu.overflow, soamCount := c.ppu.soamCount, spr0Next := c.ppu.spr0Next,
              units := c.ppu.units, unitCount := c.ppu.unitCount, spr0Line := c.ppu.spr0Line,
              scanline := t.ppu.scanline, dot := t.ppu.dot, frameCount := t.ppu.frameCount,
              oddFrame := t.ppu.oddFrame } := by
  have hpixel := pixelStep_frame (renderingEnabled s.ppu.mask) s.ppu.scanline s.ppu.dot a
  have hspr := spriteStep_frame h.sprites
  rw [h.advanced, State.setReply_ppu, State.setPpu_ppu, advance_frame, hspr, hpixel]
  rfl

/-- On a rendering line with rendering enabled the background step is `bg_step` (R121). -/
theorem TickSteps.bgStep_eq (hen : s.ppu.mask.getLsbD 3 = true ∨ s.ppu.mask.getLsbD 4 = true)
    (hline : s.ppu.scanline < 240 ∨ s.ppu.scanline = 261) :
    bgStep s.ppu.scanline s.ppu.dot (flagEvents s) = some a := by
  have hbg := h.background
  rwa [backgroundStep, if_pos ⟨hline, renderingEnabled_eq_true.2 hen⟩] at hbg

theorem TickSteps.mask_before : a.ppu.mask = s.ppu.mask := by rw [h.before_pixel]

theorem TickSteps.palette_before : a.palette = s.palette := by rw [h.before_pixel]

theorem TickSteps.framebuffer_before : a.ppu.framebuffer = s.ppu.framebuffer := by rw [h.before_pixel]

theorem TickSteps.mask_eq : t.ppu.mask = a.ppu.mask := by rw [h.after_pixel]

theorem TickSteps.x_eq : t.ppu.x = a.ppu.x := by rw [h.after_pixel]

theorem TickSteps.bg_eq : t.ppu.bg = a.ppu.bg := by rw [h.after_pixel]

theorem TickSteps.s0hit_eq :
    t.ppu.s0hit = (pixelStep (renderingEnabled s.ppu.mask) s.ppu.scanline s.ppu.dot a).ppu.s0hit := by
  rw [h.after_pixel]

theorem TickSteps.framebuffer_eq :
    t.ppu.framebuffer =
      (pixelStep (renderingEnabled s.ppu.mask) s.ppu.scanline s.ppu.dot a).ppu.framebuffer := by
  rw [h.after_pixel]

/-- The sprite units change at dot 257 alone, after the last pixel of the line. -/
theorem TickSteps.units_eq (hd : s.ppu.dot ≠ 257) :
    t.ppu.units = a.ppu.units ∧ t.ppu.unitCount = a.ppu.unitCount := by
  have hpixel := pixelStep_frame (renderingEnabled s.ppu.mask) s.ppu.scanline s.ppu.dot a
  obtain ⟨-, -, hunits, hcount⟩ := spriteStep_writes h.sprites
  have hu : c.ppu.units = a.ppu.units := by
    rw [hunits.resolve_right fun hw => hd hw.2.1, hpixel]; rfl
  have hc : c.ppu.unitCount = a.ppu.unitCount := by
    rw [(hcount.resolve_right fun hw => hd hw.2).1, hpixel]; rfl
  rw [h.after_pixel]
  exact ⟨hu, hc⟩

end steps

/-! ## A tick with rendering disabled (R131) -/

theorem spriteStep_disabled (line d : Nat) (s : State) :
    spriteStep false line d s = some (if (line < 240 ∨ line = 261) ∧ d = 257 then sprEmpty s else s) := by
  unfold spriteStep
  by_cases hline : line < 240
  · by_cases hd : d = 257
    · simp [hline, hd]
    · simp [hline, hd]
  · simp only [hline, if_false, false_or]
    split <;> rfl

end Sys2Proof.Machine
end

section
/-! PROOFS. Pixel output (43_ppu_render.md section 5): the background and the sprite pixel of a column, the palette
address of the two, and the pixel a tick stores. -/

namespace Sys2Proof.Machine

theorem getLsbD_toNat {n : Nat} (r : BitVec n) (j : Nat) : (r.getLsbD j).toNat = r.toNat / 2 ^ j % 2 :=
  Nat.toNat_testBit r.toNat j

theorem twoBits_toNat (hi lo : Bool) : (twoBits hi lo).toNat = hi.toNat * 2 + lo.toNat := by
  rw [twoBits, append_toNat, BitVec.toNat_ofBool, BitVec.toNat_ofBool, pow_one]

/-! ## The background pixel (R148) -/

section background
variable {p : Ppu} {x : Nat}

theorem bgPixel_of_hidden (h : p.mask.getLsbD 3 = false ∨ (x < 8 ∧ p.mask.getLsbD 1 = false)) :
    bgPixel p x = (0#2, 0#2) :=
  if_pos (by simpa [maskShowBg, maskBgLeft] using h)

theorem bgPixel_of_shown (h : ¬(p.mask.getLsbD 3 = false ∨ (x < 8 ∧ p.mask.getLsbD 1 = false))) :
    bgPixel p x =
      (twoBits (p.bg.bgShiftHi.getLsbD (15 - p.x.toNat)) (p.bg.bgShiftLo.getLsbD (15 - p.x.toNat)),
       twoBits (p.bg.atShiftHi.getLsbD (15 - p.x.toNat)) (p.bg.atShiftLo.getLsbD (15 - p.x.toNat))) :=
  if_neg (by simpa [maskShowBg, maskBgLeft] using h)

/-- The background pixel depends on the mask, fine x and the shifters. -/
theorem bgPixel_congr {q : Ppu} (hmask : q.mask = p.mask) (hx : q.x = p.x) (hbg : q.bg = p.bg) (x : Nat) :
    bgPixel q x = bgPixel p x := by
  simp only [bgPixel, hmask, hx, hbg]

end background

/-! ## The sprite pixel (R149) -/

/-- A unit's colour index by the bits of its pattern bytes, with the horizontal flip. -/
theorem unitPixel_toNat (u : SpriteUnit) (x : Nat) :
    (unitPixel u x).toNat =
      if u.x.toNat ≤ x ∧ x ≤ u.x.toNat + 7 then
        let b := if u.attr.getLsbD 6 then x - u.x.toNat else 7 - (x - u.x.toNat)
        u.hi.toNat / 2 ^ b % 2 * 2 + u.lo.toNat / 2 ^ b % 2
      else 0 := by
  unfold unitPixel
  split
  · simp only [twoBits_toNat, getLsbD_toNat]
  · rfl

/-- The scan returns the first unit with an opaque pixel, under its number. -/
theorem firstOpaque_eq_some {x i : Nat} {us : List SpriteUnit} {q : SprPixel} :
    firstOpaque x i us = some q ↔
      ∃ k, q.i = i + k ∧ (∃ u, us[k]? = some u ∧ q.attr = u.attr ∧ q.sp = unitPixel u x ∧ unitPixel u x ≠ 0#2) ∧
        ∀ j, j < k → ∀ u, us[j]? = some u → unitPixel u x = 0#2 := by
  induction us generalizing i with
  | nil => simp [firstOpaque]
  | cons u us ih =>
    by_cases hu : unitPixel u x = 0#2
    case pos =>
      have hskip : firstOpaque x i (u :: us) = firstOpaque x (i + 1) us := if_neg (not_not.2 hu)
      rw [hskip, ih]
      constructor
      · rintro ⟨k, hi, hopaque, hclear⟩
        refine ⟨k + 1, by omega, hopaque, fun j hj v hv => ?_⟩
        cases j with
        | zero => cases hv; exact hu
        | succ j => exact hclear j (by omega) v hv
      · rintro ⟨k, hi, hopaque, hclear⟩
        cases k with
        | zero =>
          obtain ⟨v, hv, -, -, hne⟩ := hopaque
          cases hv
          exact absurd hu hne
        | succ k => exact ⟨k, by omega, hopaque, fun j hj v hv => hclear (j + 1) (by omega) v hv⟩
    case neg =>
      have hfirst : firstOpaque x i (u :: us) = some ⟨unitPixel u x, i, u.attr⟩ := if_pos hu
      rw [hfirst]
      constructor
      · rintro h
        cases h
        exact ⟨0, rfl, ⟨u, rfl, rfl, rfl, hu⟩, fun j hj => absurd hj (Nat.not_lt_zero j)⟩
      · rintro ⟨k, hi, ⟨v, hv, hattr, hsp, -⟩, hclear⟩
        cases k with
        | zero =>
          cases hv
          obtain ⟨sp, n, attr⟩ := q
          cases hi
          cases hattr
          cases hsp
          rfl
        | succ k => exact absurd (hclear 0 (by omega) u rfl) hu

theorem sprPixel_eq (p : Ppu) (x : Nat) :
    sprPixel p x =
      if p.mask.getLsbD 4 = true ∧ (8 ≤ x ∨ p.mask.getLsbD 2 = true) then
        firstOpaque x 0 (p.units.toList.take p.unitCount)
      else none := by
  have hhidden : (!maskShowSpr p.mask || (decide (x < 8) && !maskSprLeft p.mask)) = true ↔
      ¬(p.mask.getLsbD 4 = true ∧ (8 ≤ x ∨ p.mask.getLsbD 2 = true)) := by
    simp [maskShowSpr, maskSprLeft, imp_iff_not_or]
  rw [sprPixel, if_congr hhidden rfl rfl, ite_not]

/-- The units the scan sees, by their numbers. -/
theorem units_take_getElem? {p : Ppu} {k : Nat} (u : SpriteUnit) :
    (p.units.toList.take p.unitCount)[k]? = some u ↔ k < p.unitCount ∧ p.units[k]? = some u := by
  rw [List.getElem?_take]
  split
  · next hk => simp [hk]
  · next hk => simp [hk]

/-- The sprite pixel is that of the first unit below `unit_count` with an opaque pixel at the column (R149). -/
theorem sprPixel_eq_some {p : Ppu} {x : Nat} {q : SprPixel} :
    sprPixel p x = some q ↔
      p.mask.getLsbD 4 = true ∧ (8 ≤ x ∨ p.mask.getLsbD 2 = true) ∧ q.i < p.unitCount ∧
      (∃ u, p.units[q.i]? = some u ∧ q.attr = u.attr ∧ q.sp = unitPixel u x ∧ unitPixel u x ≠ 0#2) ∧
      ∀ j, j < q.i → ∀ u, p.units[j]? = some u → unitPixel u x = 0#2 := by
  simp only [sprPixel_eq, Option.ite_none_right_eq_some, firstOpaque_eq_some, units_take_getElem?, zero_add]
  constructor
  · rintro ⟨⟨hshow, hclip⟩, k, hi, ⟨u, ⟨hk, hu⟩, hpixel⟩, hclear⟩
    subst hi
    exact ⟨hshow, hclip, hk, ⟨u, hu, hpixel⟩, fun j hj v hv => hclear j hj v ⟨hj.trans hk, hv⟩⟩
  · rintro ⟨hshow, hclip, hk, ⟨u, hu, hpixel⟩, hclear⟩
    exact ⟨⟨hshow, hclip⟩, q.i, rfl, ⟨u, ⟨hk, hu⟩, hpixel⟩, fun j hj v hv => hclear j hj v hv.2⟩

theorem sprPixel_opaque {p : Ppu} {x : Nat} {q : SprPixel} (h : sprPixel p x = some q) : q.sp ≠ 0#2 := by
  obtain ⟨-, -, -, ⟨u, -, -, hsp, hne⟩, -⟩ := sprPixel_eq_some.1 h
  exact hsp ▸ hne

/-- The sprite pixel depends on the mask and the loaded units. -/
theorem sprPixel_congr {p q : Ppu} (hmask : q.mask = p.mask) (hunits : q.units = p.units)
    (hcount : q.unitCount = p.unitCount) (x : Nat) : sprPixel q x = sprPixel p x := by
  simp only [sprPixel, hmask, hunits, hcount]

/-! ## The palette address (R151) -/

theorem bgPaletteAddr_toNat (pal p : BitVec 2) : (bgPaletteAddr pal p).toNat = 0x3F00 + pal.toNat * 4 + p.toNat := by
  rw [bgPaletteAddr, BitVec.toNat_ofNat]; omega

theorem sprPaletteAddr_toNat (attr : Byte) (sp : BitVec 2) :
    (sprPaletteAddr attr sp).toNat = 0x3F10 + attr.toNat % 4 * 4 + sp.toNat := by
  rw [sprPaletteAddr, BitVec.toNat_ofNat, extract_toNat]; omega

theorem compose_none_toNat (p pal : BitVec 2) :
    (compose p pal none).toNat = if p = 0#2 then 0x3F00 else 0x3F00 + pal.toNat * 4 + p.toNat := by
  rw [compose, apply_ite BitVec.toNat, bgPaletteAddr_toNat]; rfl

/-- A sprite pixel is in front of a clear background, and of any with its priority bit 0. -/
theorem compose_some_toNat (p pal : BitVec 2) (q : SprPixel) :
    (compose p pal (some q)).toNat =
      if p = 0#2 ∨ q.attr.getLsbD 5 = false then 0x3F10 + q.attr.toNat % 4 * 4 + q.sp.toNat
      else 0x3F00 + pal.toNat * 4 + p.toNat := by
  rw [compose, apply_ite BitVec.toNat, sprPaletteAddr_toNat, bgPaletteAddr_toNat]
  simp only [Bool.or_eq_true, decide_eq_true_eq, Bool.not_eq_true']

/-- The composed address is a palette address, and none of the aliased sprite backdrops (R147, R151). -/
theorem compose_range (p pal : BitVec 2) {spr : Option SprPixel} (h : ∀ q, spr = some q → q.sp ≠ 0#2) :
    0x3F00 ≤ (compose p pal spr).toNat ∧ (compose p pal spr).toNat ≤ 0x3F1F ∧
      (0x3F10 ≤ (compose p pal spr).toNat → (compose p pal spr).toNat % 4 ≠ 0) := by
  have hpal := pal.isLt
  have hp := p.isLt
  cases spr with
  | none =>
    rw [compose_none_toNat]
    split <;> omega
  | some q =>
    have hsp : q.sp.toNat ≠ 0 := fun h0 => h q rfl (BitVec.eq_of_toNat_eq h0)
    have hlt := q.sp.isLt
    rw [compose_some_toNat]
    split <;> omega

/-- Settles O32: the two cases of `BgPixel`, the first opaque unit of the scan, and the table of R151. -/
theorem pixelSelection : Obligations.PixelSelection := by
  unfold Obligations.PixelSelection
  refine ⟨fun p x => ⟨bgPixel_of_hidden, fun hshown => ?background⟩, fun p x q => ?sprite, fun p pal q => ?address⟩
  case background =>
    simp only [bgPixel_of_shown hshown, twoBits_toNat, getLsbD_toNat, and_self]
  case sprite =>
    simp only [← unitPixel_toNat]
    have hclear (u : SpriteUnit) : (unitPixel u x).toNat = 0 ↔ unitPixel u x = 0#2 := BitVec.toNat_inj (y := 0#2)
    simp only [ne_eq, hclear, BitVec.toNat_inj]
    exact sprPixel_eq_some
  case address =>
    rw [compose_none_toNat, compose_some_toNat]
    refine ⟨fun hp => if_pos hp, fun hp => if_neg hp, fun hp => if_pos (.inl hp),
      fun _ hfront => if_pos (.inr hfront), fun hp hbehind => if_neg ?_⟩
    simp only [hp, hbehind, Bool.true_eq_false, or_self, not_false_eq_true]

/-! ## The stored pixel (R147, R152) -/

theorem colourOut_eq_append (mask b : Byte) :
    colourOut mask b =
      mask.extractLsb' 5 3 ++ b.extractLsb' 4 2 ++ (if mask.getLsbD 0 then 0#4 else b.extractLsb' 0 4) := by
  rw [colourOut, maskGrey, maskEmphasis]
  apply BitVec.eq_of_getLsbD_eq
  intro i hi
  rw [BitVec.getLsbD_append, BitVec.getLsbD_append]
  cases mask.getLsbD 0 with
  | false => interval_cases i <;> simp
  | true => interval_cases i <;> simp

theorem colourOut_toNat (mask b : Byte) :
    (colourOut mask b).toNat =
      mask.toNat / 32 * 64 + (if mask.getLsbD 0 then b.toNat % 64 / 16 * 16 else b.toNat % 64) := by
  rw [colourOut_eq_append]
  refine (append_toNat _ _).trans ?_
  simp only [append_toNat, extract_toNat, apply_ite BitVec.toNat, BitVec.toNat_ofNat]
  split_ifs <;> omega

/-- The palette address of the pixel at column `x` (R147): the composed one, or the backdrop with rendering disabled. -/
def pixelAddr (en : Bool) (p : Ppu) (x : Nat) : BusAddr :=
  if en then compose (bgPixel p x).1 (bgPixel p x).2 (sprPixel p x) else backdropAddr

theorem pixelAddr_range (en : Bool) (p : Ppu) (x : Nat) :
    0x3F00 ≤ (pixelAddr en p x).toNat ∧ (pixelAddr en p x).toNat ≤ 0x3F1F ∧
      (0x3F10 ≤ (pixelAddr en p x).toNat → (pixelAddr en p x).toNat % 4 ≠ 0) := by
  cases en with
  | false => exact (by decide : 0x3F00 ≤ 0x3F00 ∧ 0x3F00 ≤ 0x3F1F ∧ (0x3F10 ≤ 0x3F00 → 0x3F00 % 4 ≠ 0))
  | true => exact compose_range _ _ fun q hq => sprPixel_opaque hq

/-- Pixel output stores the byte at `pixelAddr`, whether or not the pixel is a sprite-0 hit. -/
theorem pixelStep_framebuffer (en : Bool) {line d : Nat} (s : State) (h : line < 240 ∧ 1 ≤ d ∧ d ≤ 256) :
    (pixelStep en line d s).ppu.framebuffer =
      Framebuffer.set s.ppu.framebuffer line (d - 1)
        (colourOut s.ppu.mask (s.palette.get (palIndex (pixelAddr en s.ppu (d - 1))))) := by
  rw [pixelStep, if_pos h]
  cases en with
  | false => rfl
  | true =>
    rw [if_pos rfl, renderPixel, hitSprite0_frame]
    rfl

/-- Pixel output sees the background pixel of the state the tick leaves. -/
theorem TickSteps.bgPixel_eq {s a c t : State} (h : TickSteps s a c t) (x : Nat) :
    bgPixel t.ppu x = bgPixel a.ppu x :=
  bgPixel_congr h.mask_eq h.x_eq h.bg_eq x

/-- And its sprite pixel: dot 257, which loads the units, has no pixel. -/
theorem TickSteps.sprPixel_eq {s a c t : State} (h : TickSteps s a c t) (hd : s.ppu.dot ≠ 257) (x : Nat) :
    sprPixel t.ppu x = sprPixel a.ppu x := by
  obtain ⟨hunits, hcount⟩ := h.units_eq hd
  exact sprPixel_congr h.mask_eq hunits hcount x

theorem TickSteps.pixelAddr_eq {s a c t : State} (h : TickSteps s a c t) (hd : s.ppu.dot ≠ 257) (en : Bool) (x : Nat) :
    pixelAddr en a.ppu x = pixelAddr en t.ppu x := by
  rw [pixelAddr, pixelAddr, h.bgPixel_eq, h.sprPixel_eq hd]

/-- Settles O31: what follows pixel output in the tick changes nothing the pixel was made of. -/
theorem pixelOutput : Obligations.PixelOutput := by
  unfold Obligations.PixelOutput
  intro s t h
  obtain ⟨a, c, steps⟩ := exec_ppuTick_steps.1 h
  refine ⟨fun hline hlo hhi => ?stored, fun y x hother => ?others⟩
  case stored =>
    have haddr : (if s.ppu.mask.getLsbD 3 = true ∨ s.ppu.mask.getLsbD 4 = true then
          compose (bgPixel t.ppu (s.ppu.dot - 1)).1 (bgPixel t.ppu (s.ppu.dot - 1)).2 (sprPixel t.ppu (s.ppu.dot - 1))
        else 0x3F00#14) = pixelAddr (renderingEnabled s.ppu.mask) t.ppu (s.ppu.dot - 1) :=
      if_congr renderingEnabled_eq_true.symm rfl rfl
    have hrange := pixelAddr_range (renderingEnabled s.ppu.mask) t.ppu (s.ppu.dot - 1)
    simp only [haddr]
    refine ⟨hrange, _, busRead_palette s hrange.1, ?_⟩
    rw [steps.framebuffer_eq, pixelStep_framebuffer _ a ⟨hline, hlo, hhi⟩, Framebuffer.get_set_same,
      steps.pixelAddr_eq (by omega), steps.mask_before, steps.palette_before, colourOut_toNat]
  case others =>
    rw [steps.framebuffer_eq, ← steps.framebuffer_before]
    by_cases hout : s.ppu.scanline < 240 ∧ 1 ≤ s.ppu.dot ∧ s.ppu.dot ≤ 256
    · rw [pixelStep_framebuffer _ a hout, Framebuffer.get_set_other]
      rintro ⟨rfl, rfl⟩
      exact hother ⟨rfl, rfl, hout⟩
    · rw [pixelStep_of_idle a hout]

end Sys2Proof.Machine
end

section
/-! PROOFS. A tick with rendering disabled (43_ppu_render.md, R131); what the operations other than a tick write in
the PPU; and the sprite-0 hit flag (R150): when a tick sets it, and that no operation but those of R124 and R174
clears it. -/

namespace Sys2Proof.Machine

/-! ## The rendering flags in a tick (R123, R124) -/

/-- Only the event at (261, 1) writes a rendering flag before pixel output. -/
theorem flagEvents_s0hit_overflow {s : State} (h : ¬(s.ppu.scanline = 261 ∧ s.ppu.dot = 1)) :
    (flagEvents s).ppu.s0hit = s.ppu.s0hit ∧ (flagEvents s).ppu.overflow = s.ppu.overflow := by
  by_cases hvblank : s.ppu.scanline = 241 ∧ s.ppu.dot = 1
  · rw [flagEvents_vblank hvblank.1 hvblank.2, vblankStart_eq]
    exact ⟨rfl, rfl⟩
  · rw [flagEvents_other hvblank h]
    exact ⟨rfl, rfl⟩

theorem flagEvents_s0hit_false {s : State} (h : s.ppu.s0hit = false) : (flagEvents s).ppu.s0hit = false := by
  by_cases hclear : s.ppu.scanline = 261 ∧ s.ppu.dot = 1
  · rw [flagEvents_preRender hclear.1 hclear.2]; rfl
  · rw [(flagEvents_s0hit_overflow hclear).1, h]

/-! ## A tick with rendering disabled (R131) -/

/-- With rendering disabled the steps of a tick are the flag events, the backdrop pixel, and the emptying of the
units. -/
theorem TickSteps.disabled {s a c t : State} (h : TickSteps s a c t) (hen : renderingEnabled s.ppu.mask = false) :
    a = flagEvents s ∧
      c = if (s.ppu.scanline < 240 ∨ s.ppu.scanline = 261) ∧ s.ppu.dot = 257 then
            sprEmpty (pixelStep false s.ppu.scanline s.ppu.dot (flagEvents s))
          else pixelStep false s.ppu.scanline s.ppu.dot (flagEvents s) := by
  have hbg := h.background
  have hspr := h.sprites
  rw [backgroundStep_of_idle _ (by simp [hen])] at hbg
  cases hbg
  rw [hen, spriteStep_disabled, Option.some_inj] at hspr
  exact ⟨rfl, hspr.symm⟩

theorem pixelStep_disabled_s0hit (line d : Nat) (s : State) : (pixelStep false line d s).ppu.s0hit = s.ppu.s0hit := by
  unfold pixelStep
  split <;> rfl

/-- What a tick can write with rendering disabled: the flags of the frame's events, the emptied units, the
framebuffer, the position and the events. -/
theorem TickSteps.disabled_frame {s a c t : State} (h : TickSteps s a c t)
    (hen : renderingEnabled s.ppu.mask = false) :
    t = { s with
          ppu := { s.ppu with vblank := t.ppu.vblank, s0hit := (flagEvents s).ppu.s0hit,
                              overflow := (flagEvents s).ppu.overflow, unitCount := t.ppu.unitCount,
                              spr0Line := t.ppu.spr0Line, framebuffer := t.ppu.framebuffer,
                              scanline := t.ppu.scanline, dot := t.ppu.dot, frameCount := t.ppu.frameCount,
                              oddFrame := t.ppu.oddFrame },
          history := t.history, reply := .none } := by
  obtain ⟨-, hc⟩ := h.disabled hen
  have hadvance := advance_frame s.cfg (renderingEnabled s.ppu.mask) c.ppu
  have hpixel := pixelStep_frame false s.ppu.scanline s.ppu.dot (flagEvents s)
  have hflags := flagEvents_frame s
  rw [pixelStep_disabled_s0hit] at hpixel
  rw [h.advanced, hadvance, hc]
  split
  · rw [hpixel, hflags]; rfl
  · rw [hpixel, hflags]; rfl

/-- With rendering disabled dot 257 of a visible line empties the units (R146). -/
theorem TickSteps.disabled_units {s a c t : State} (h : TickSteps s a c t)
    (hen : renderingEnabled s.ppu.mask = false) (hline : s.ppu.scanline < 240) (hdot : s.ppu.dot = 257) :
    t.ppu.unitCount = 0 ∧ t.ppu.spr0Line = false := by
  obtain ⟨-, hc⟩ := h.disabled hen
  rw [if_pos ⟨.inl hline, hdot⟩] at hc
  rw [h.after_pixel, hc]
  exact ⟨rfl, rfl⟩

/-- With rendering disabled a tick stores the backdrop colour, palette entry 0. -/
theorem TickSteps.disabled_pixel {s a c t : State} (h : TickSteps s a c t)
    (hen : renderingEnabled s.ppu.mask = false)
    (hout : s.ppu.scanline < 240 ∧ 1 ≤ s.ppu.dot ∧ s.ppu.dot ≤ 256) :
    Framebuffer.get t.ppu.framebuffer s.ppu.scanline (s.ppu.dot - 1) =
      colourOut s.ppu.mask (s.palette.get 0) := by
  have hbackdrop : palIndex (pixelAddr false a.ppu (s.ppu.dot - 1)) = 0 :=
    show palIndex backdropAddr = 0 by decide
  rw [h.framebuffer_eq, hen, pixelStep_framebuffer _ _ hout, Framebuffer.get_set_same, hbackdrop, h.mask_before,
    h.palette_before]

/-- Settles O22: a tick with rendering disabled always completes, by `exec_ppuTick_disabled`, and its steps are the flag
events, the backdrop pixel and the emptying of the units. -/
theorem renderingDisabledTick : Obligations.RenderingDisabledTick := by
  unfold Obligations.RenderingDisabledTick
  intro s hbg hspr
  have hen : renderingEnabled s.ppu.mask = false := renderingEnabled_eq_false.2 ⟨hbg, hspr⟩
  obtain ⟨t, htick, -⟩ := exec_ppuTick_disabled hen
  obtain ⟨a, c, steps⟩ := exec_ppuTick_steps.1 htick
  have frame := steps.disabled_frame hen
  refine ⟨t, htick, ?_, ?_, ?_, ?_, ?_, ?_, ?_, fun hclear => ?flags, steps.disabled_units hen,
    fun hline hlo hhi => ?pixel⟩
  case flags =>
    obtain ⟨hs0hit, hoverflow⟩ := flagEvents_s0hit_overflow hclear
    rw [frame]
    exact ⟨hoverflow, hs0hit⟩
  case pixel => rw [steps.disabled_pixel hen ⟨hline, hlo, hhi⟩, colourOut_toNat]
  all_goals rw [frame]

/-! ## What the operations of the window, the bus and the mapper write in the PPU (R6, R161) -/

/-- From `s` to `t` the PPU changes in the registers of the window and its latches alone. -/
def WindowFrame (s t : State) : Prop :=
  t.ppu = { s.ppu with
            ctrl := t.ppu.ctrl, mask := t.ppu.mask, vblank := t.ppu.vblank, oamAddr := t.ppu.oamAddr, v := t.ppu.v,
            t := t.ppu.t, x := t.ppu.x, w := t.ppu.w, readBuffer := t.ppu.readBuffer, ioLatch := t.ppu.ioLatch }

theorem WindowFrame.trans {s t u : State} (h : WindowFrame s t) (k : WindowFrame t u) : WindowFrame s u := by
  unfold WindowFrame at *
  rw [k, h]

/-- If the outcome is a next state, it is one within `WindowFrame`. -/
def WindowOutcome (s : State) (r : Result) : Prop := ∀ t, r = .next t → WindowFrame s t

section outcome
variable {s : State}

theorem WindowOutcome.next {t : State} (h : WindowFrame s t) : WindowOutcome s (.next t) := by
  rintro _ ⟨⟩
  exact h

theorem WindowOutcome.orNoCartridge {α : Type} {r : Option α} {f : α → Result}
    (h : ∀ x, r = some x → WindowOutcome s (f x)) : WindowOutcome s (orNoCartridge r f) := by
  intro t ht
  obtain ⟨x, hx, hf⟩ := orNoCartridge_eq_next.1 ht
  exact h x hx t hf

theorem WindowOutcome.withMapper {f : Mapper → Result} (h : ∀ m, WindowOutcome s (f m)) :
    WindowOutcome s (withMapper s f) := by
  intro t ht
  obtain ⟨m, -, hf⟩ := withMapper_eq_next.1 ht
  exact h m t hf

theorem WindowOutcome.withNrom {f : Mapper → Result} (h : ∀ m, WindowOutcome s (f m)) :
    WindowOutcome s (withNrom s f) := by
  intro t ht
  obtain ⟨m, -, -, hf⟩ := withNrom_eq_next.1 ht
  exact h m t hf

theorem WindowOutcome.withMmc1 {f : Mapper → Mmc1 → Result} (h : ∀ m r, WindowOutcome s (f m r)) :
    WindowOutcome s (withMmc1 s f) := by
  intro t ht
  obtain ⟨m, r, -, -, hf⟩ := withMmc1_eq_next.1 ht
  exact h m r t hf

theorem WindowOutcome.withUxrom {f : Mapper → Byte → Result} (h : ∀ m b, WindowOutcome s (f m b)) :
    WindowOutcome s (withUxrom s f) := by
  intro t ht
  obtain ⟨m, b, -, -, hf⟩ := withUxrom_eq_next.1 ht
  exact h m b t hf

theorem WindowOutcome.withCnrom {f : Mapper → Byte → Result} (h : ∀ m b, WindowOutcome s (f m b)) :
    WindowOutcome s (withCnrom s f) := by
  intro t ht
  obtain ⟨m, b, -, -, hf⟩ := withCnrom_eq_next.1 ht
  exact h m b t hf

theorem busWrite_windowFrame {u : State} {a : BusAddr} {d : Byte} (h : busWrite s a d = some u) : WindowFrame s u := by
  rcases busWrite_eq_some h with ⟨-, m, -, rfl⟩ | ⟨-, -, m, -, rfl⟩ | ⟨-, rfl⟩
  · rfl
  · rfl
  · rfl

theorem WindowOutcome.busAnswer (a : BusAddr) : WindowOutcome s (busAnswer s a) :=
  .orNoCartridge fun _ _ => .next rfl

theorem WindowOutcome.busStore (a : BusAddr) (d : Byte) : WindowOutcome s (busStore s a d) :=
  .orNoCartridge fun _ hu => .next ((busWrite_windowFrame hu).trans rfl)

theorem ppudataReadEffect_windowFrame {r : Byte × State} (h : ppudataReadEffect s = some r) : WindowFrame s r.2 := by
  unfold ppudataReadEffect at h
  simp only at h
  split at h
  · split at h
    · obtain ⟨b, -, rfl⟩ := Option.map_eq_some_iff.1 h; rfl
    · obtain ⟨b, -, rfl⟩ := Option.map_eq_some_iff.1 h; rfl
  · obtain ⟨b, -, rfl⟩ := Option.map_eq_some_iff.1 h; rfl

end outcome

/-- No operation but a tick, a power cycle or a reset writes anything else in the PPU: not the position, the frame
count, the rendering flags, the pipeline or the framebuffer. -/
theorem exec_windowOutcome (s : State) {i : Instr} (tick : i ≠ .ppuTick) (powerCycle : i ≠ .ppuPowerCycle)
    (reset : i ≠ .ppuReset) : WindowOutcome s (exec i s) := by
  cases i
  case ppuTick => exact absurd rfl tick
  case ppuPowerCycle => exact absurd rfl powerCycle
  case ppuReset => exact absurd rfl reset
  case ppuctrlW k d =>
    obtain ⟨_, hexec, -⟩ := ppuctrlWrite k d s
    rw [hexec]
    exact .next rfl
  case ppuscrollW k d =>
    refine .next ?_
    unfold scrollWrite
    split <;> rfl
  case ppuaddrW k d =>
    refine .next ?_
    unfold addrWrite
    split <;> rfl
  case ppudataR k => exact .orNoCartridge fun _ hr => .next ((ppudataReadEffect_windowFrame hr).trans rfl)
  case ppudataP k => exact .orNoCartridge fun _ _ => .next rfl
  case ppudataW k d =>
    refine .orNoCartridge fun _ heffect => .next ?_
    obtain ⟨u, hu, rfl⟩ := Option.map_eq_some_iff.1 heffect
    exact (show WindowFrame s (s.latch d) from rfl).trans ((busWrite_windowFrame hu).trans rfl)
  case oamdmaW d =>
    rw [exec_oamdmaW]
    split
    · intro t ht; cases ht
    · exact .next rfl
  case mapFactory id =>
    show WindowOutcome s (execMapFactory id s)
    unfold execMapFactory
    split
    · exact .next rfl
    · exact .next rfl
  case mapTick | mapMirroring => exact .withMapper fun _ => .next rfl
  case nromChrR | nromChrW | nromPrgR | nromPrgW | nromPeek | nromUnmappedR | nromUnmappedW =>
    exact .withNrom fun _ => .next rfl
  case mmc1PrgramR | mmc1PrgramW | mmc1WCtrl | mmc1WChr0 | mmc1WChr1 | mmc1WPrg | mmc1PrgLoR | mmc1PrgHiR
      | mmc1ChrLoR | mmc1ChrHiR | mmc1ChrW | mmc1Peek | mmc1UnmappedR | mmc1UnmappedW =>
    exact .withMmc1 fun _ _ => .next rfl
  case uxromWBank | uxromPrgLoR | uxromPrgHiR | uxromChrR | uxromChrW | uxromPeek | uxromUnmappedR | uxromUnmappedW =>
    exact .withUxrom fun _ _ => .next rfl
  case cnromWBank | cnromChrR | cnromChrW | cnromPrgR | cnromPeek | cnromUnmappedR | cnromUnmappedW =>
    exact .withCnrom fun _ _ => .next rfl
  case pbusPtR | pbusPtP | pbusPalR | pbusPalP | pbusNtR | pbusNtP => exact .busAnswer _
  case pbusPtW | pbusPalW | pbusNtW => exact .busStore _ _
  -- The other window rows, and the two queries: a byte answered or a register written.
  all_goals exact .next rfl

/-! ## The sprite-0 hit (R150) -/

theorem sprite0Hit_iff {s : State} {x : Nat} {p sp : BitVec 2} {fromUnit0 : Bool} :
    sprite0Hit s x p sp fromUnit0 = true ↔
      fromUnit0 = true ∧ s.ppu.spr0Line = true ∧ p ≠ 0#2 ∧ sp ≠ 0#2 ∧ s.ppu.mask.getLsbD 3 = true ∧
        s.ppu.mask.getLsbD 4 = true ∧ ¬(s.cfg.sprite0X255Excluded = true ∧ x = 255) := by
  simp only [sprite0Hit, maskShowBg, maskShowSpr, Bool.and_eq_true, bne_iff_ne, Bool.not_eq_true',
    Bool.and_eq_false_iff, beq_eq_false_iff_ne, not_and_or, and_assoc, Bool.not_eq_true]

/-- The hit flag after a pixel: as it was, or set by a pixel of unit 0. -/
theorem hitSprite0_s0hit {s : State} {x : Nat} {p : BitVec 2} {spr : Option SprPixel} :
    (hitSprite0 s x p spr).ppu.s0hit = true ↔
      s.ppu.s0hit = true ∨ ∃ q, spr = some q ∧ sprite0Hit s x p q.sp (q.i == 0) = true := by
  cases spr with
  | none => simp [hitSprite0]
  | some q =>
    by_cases hit : sprite0Hit s x p q.sp (q.i == 0) = true
    · simp [hitSprite0, hit]
    · simp [hitSprite0, hit]

theorem pixelStep_s0hit {en : Bool} {line d : Nat} {s : State} :
    (pixelStep en line d s).ppu.s0hit = true ↔
      s.ppu.s0hit = true ∨ ((line < 240 ∧ 1 ≤ d ∧ d ≤ 256) ∧ en = true ∧
        ∃ q, sprPixel s.ppu (d - 1) = some q ∧
          sprite0Hit s (d - 1) (bgPixel s.ppu (d - 1)).1 q.sp (q.i == 0) = true) := by
  by_cases hout : line < 240 ∧ 1 ≤ d ∧ d ≤ 256
  · cases en with
    | false => simp [pixelStep_disabled_s0hit]
    | true =>
      have hrender : (pixelStep true line d s).ppu.s0hit =
          (hitSprite0 s (d - 1) (bgPixel s.ppu (d - 1)).1 (sprPixel s.ppu (d - 1))).ppu.s0hit := by
        rw [pixelStep, if_pos hout]; rfl
      rw [hrender, hitSprite0_s0hit]
      simp only [hout, and_self, true_and]
  · rw [pixelStep_of_idle s hout]
    simp only [hout, false_and, or_false]

/-- A tick that starts with the flag 0 leaves it 1 exactly at a hit; the pixels are those of the state it leaves. -/
theorem TickSteps.s0hit_iff {s a c t : State} (h : TickSteps s a c t) (hclear : s.ppu.s0hit = false) :
    t.ppu.s0hit = true ↔
      s.ppu.scanline < 240 ∧ 1 ≤ s.ppu.dot ∧ s.ppu.dot ≤ 256 ∧ s.ppu.spr0Line = true ∧
      s.ppu.mask.getLsbD 3 = true ∧ s.ppu.mask.getLsbD 4 = true ∧ (bgPixel t.ppu (s.ppu.dot - 1)).1 ≠ 0#2 ∧
      (∃ q, sprPixel t.ppu (s.ppu.dot - 1) = some q ∧ q.i = 0 ∧ q.sp ≠ 0#2) ∧
      ¬(s.cfg.sprite0X255Excluded = true ∧ s.ppu.dot - 1 = 255) := by
  have hbefore : a.ppu.s0hit = false := by rw [h.before_pixel]; exact flagEvents_s0hit_false hclear
  have hline : a.ppu.spr0Line = s.ppu.spr0Line := by rw [h.before_pixel]
  have hcfg : a.cfg = s.cfg := by rw [h.before_pixel]
  have hspr (hd : s.ppu.dot ≤ 256) (x : Nat) : sprPixel t.ppu x = sprPixel a.ppu x := h.sprPixel_eq (by omega) x
  simp only [h.s0hit_eq, pixelStep_s0hit, hbefore, Bool.false_eq_true, false_or, sprite0Hit_iff, hline, hcfg,
    h.mask_before, beq_iff_eq, h.bgPixel_eq]
  constructor
  · rintro ⟨⟨hvisible, hlo, hhi⟩, -, q, hq, hfirst, hloaded, hopaque, hsp, hshowBg, hshowSpr, hedge⟩
    exact ⟨hvisible, hlo, hhi, hloaded, hshowBg, hshowSpr, hopaque, ⟨q, (hspr hhi _).trans hq, hfirst, hsp⟩, hedge⟩
  · rintro ⟨hvisible, hlo, hhi, hloaded, hshowBg, hshowSpr, hopaque, ⟨q, hq, hfirst, hsp⟩, hedge⟩
    exact ⟨⟨hvisible, hlo, hhi⟩, renderingEnabled_eq_true.2 (.inl hshowBg), q, (hspr hhi _).symm.trans hq, hfirst,
      hloaded, hopaque, hsp, hshowBg, hshowSpr, hedge⟩

/-- Once 1 the flag survives every tick but that at (261, 1). -/
theorem TickSteps.s0hit_kept {s a c t : State} (h : TickSteps s a c t) (hset : s.ppu.s0hit = true)
    (hpos : ¬(s.ppu.scanline = 261 ∧ s.ppu.dot = 1)) : t.ppu.s0hit = true := by
  have hbefore : a.ppu.s0hit = true := by
    rw [h.before_pixel]
    exact (flagEvents_s0hit_overflow hpos).1.trans hset
  rw [h.s0hit_eq]
  exact pixelStep_s0hit.2 (.inl hbefore)

/-- Settles O33: a tick by its steps; a reset keeps the flag, and no other operation writes it. -/
theorem sprite0HitExactly : Obligations.Sprite0HitExactly := by
  unfold Obligations.Sprite0HitExactly
  refine ⟨fun s t htick hclear => ?sets, fun i s t hexec hset hpower hclear => ?stays⟩
  case sets =>
    obtain ⟨a, c, steps⟩ := exec_ppuTick_steps.1 htick
    exact steps.s0hit_iff hclear
  case stays =>
    by_cases htick : i = .ppuTick
    · subst htick
      obtain ⟨a, c, steps⟩ := exec_ppuTick_steps.1 hexec
      exact steps.s0hit_kept hset fun hpos => hclear ⟨rfl, hpos⟩
    by_cases hreset : i = .ppuReset
    · subst hreset
      obtain rfl := done_eq_next.1 hexec
      exact hset
    · have hframe : WindowFrame s t := exec_windowOutcome s htick hpower hreset t hexec
      unfold WindowFrame at hframe
      rw [hframe]
      exact hset

end Sys2Proof.Machine
end

section
/-! PROOFS. The background pipeline (43_ppu_render.md section 2): the shifters after a tick, the fetches into the
latches and their addresses, and that with a mapper in the slot a tick completes. -/

namespace Sys2Proof.Machine

/-! ## The dots of R132 -/

theorem groupDot_iff {d : Nat} : groupDot d = true ↔ (1 ≤ d ∧ d ≤ 256) ∨ (321 ≤ d ∧ d ≤ 336) := by
  simp only [groupDot, Bool.or_eq_true, Bool.and_eq_true, decide_eq_true_eq]

theorem shiftDot_iff {d : Nat} : shiftDot d = true ↔ (2 ≤ d ∧ d ≤ 257) ∨ (322 ≤ d ∧ d ≤ 337) := by
  simp only [shiftDot, Bool.or_eq_true, Bool.and_eq_true, decide_eq_true_eq]

theorem reloadDot_iff {d : Nat} :
    reloadDot d = true ↔ ((9 ≤ d ∧ d ≤ 257) ∨ (329 ≤ d ∧ d ≤ 337)) ∧ d % 8 = 1 := by
  simp only [reloadDot, Bool.or_eq_true, Bool.and_eq_true, decide_eq_true_eq, beq_iff_eq]

/-! ## The shifters (R133, R134) -/

/-- The two backgrounds have the same shifters. -/
def Background.SameShifters (b b' : Background) : Prop :=
  b' = { b with ntLatch := b'.ntLatch, atLatch := b'.atLatch, ptLoLatch := b'.ptLoLatch, ptHiLatch := b'.ptHiLatch }

theorem groupWork_shifters {d : Nat} {s t : State} (h : groupWork d s = some t) :
    s.ppu.bg.SameShifters t.ppu.bg := by
  unfold groupWork at h
  split at h
  · unfold groupStep at h
    split at h
    · obtain ⟨b, -, rfl⟩ := Option.map_eq_some_iff.1 h; rfl
    · obtain ⟨b, -, rfl⟩ := Option.map_eq_some_iff.1 h; rfl
    · obtain ⟨b, -, rfl⟩ := Option.map_eq_some_iff.1 h; rfl
    · obtain ⟨b, -, rfl⟩ := Option.map_eq_some_iff.1 h; rfl
    · cases h; rfl
    · cases h; rfl
  · cases h; rfl

theorem unusedFetch_shifters {d : Nat} {s t : State} (h : unusedFetch d s = some t) :
    s.ppu.bg.SameShifters t.ppu.bg := by
  unfold unusedFetch at h
  split at h
  · obtain ⟨b, -, rfl⟩ := Option.map_eq_some_iff.1 h; rfl
  · cases h; rfl

/-- Of the background step only `shiftAndReload` writes a shifter. -/
theorem bgStep_shifters {line d : Nat} {s t : State} (h : bgStep line d s = some t) :
    (shiftAndReload d s).ppu.bg.SameShifters t.ppu.bg := by
  obtain ⟨a, b, ha, hb, rfl⟩ := bgStep_eq_some.1 h
  have hgroup := groupWork_shifters ha
  have hunused := unusedFetch_shifters hb
  rw [scrollWork_bg] at hunused
  rw [verticalCopy_bg]
  unfold Background.SameShifters at *
  rw [hunused, hgroup]

/-- One bit of a shifter after the shift and the reload of a dot: the low bit a reload puts there, the bit to its
right, or the bit as it was. -/
def shifterBit (d j : Nat) (r : BitVec 16) (low : Bool) : Bool :=
  if reloadDot d = true ∧ j < 8 then low
  else if shiftDot d = true then decide (0 < j) && r.getLsbD (j - 1)
  else r.getLsbD j

theorem shiftLeft_one_getLsbD (r : BitVec 16) {j : Nat} (hj : j < 16) :
    (r <<< 1).getLsbD j = (decide (0 < j) && r.getLsbD (j - 1)) := by
  have hpos : (!decide (j < 1)) = decide (0 < j) := by rw [← decide_not]; exact decide_eq_decide.2 Nat.not_lt
  rw [BitVec.getLsbD_shiftLeft, decide_eq_true hj, Bool.true_and, hpos]

theorem withLowByte_getLsbD (r : BitVec 16) (b : Byte) {j : Nat} (hj : j < 16) :
    (withLowByte r b).getLsbD j = if j < 8 then b.getLsbD j else r.getLsbD j := by
  interval_cases j <;> simp [withLowByte]

theorem spread_getLsbD (b : Bool) {j : Nat} (hj : j < 8) : (spread b).getLsbD j = b := by
  cases b with
  | false => exact BitVec.getLsbD_zero
  | true => interval_cases j <;> rfl

/-- One shifter after the shift and the reload of a dot, `b` the byte a reload puts into its low half. -/
def shifterNext (d : Nat) (r : BitVec 16) (b : Byte) : BitVec 16 :=
  let r := if shiftDot d then r <<< 1 else r
  if reloadDot d then withLowByte r b else r

theorem shiftAndReload_bg (d : Nat) (s : State) :
    (shiftAndReload d s).ppu.bg =
      { s.ppu.bg with
        bgShiftLo := shifterNext d s.ppu.bg.bgShiftLo s.ppu.bg.ptLoLatch,
        bgShiftHi := shifterNext d s.ppu.bg.bgShiftHi s.ppu.bg.ptHiLatch,
        atShiftLo := shifterNext d s.ppu.bg.atShiftLo (spread (s.ppu.bg.atLatch.getLsbD 0)),
        atShiftHi := shifterNext d s.ppu.bg.atShiftHi (spread (s.ppu.bg.atLatch.getLsbD 1)) } := by
  unfold shiftAndReload shifterNext
  cases shiftDot d <;> cases reloadDot d <;> rfl

theorem shifterNext_getLsbD {d j : Nat} (r : BitVec 16) {b : Byte} {low : Bool} (hj : j < 16)
    (hlow : j < 8 → b.getLsbD j = low) : (shifterNext d r b).getLsbD j = shifterBit d j r low := by
  have hshift : (if shiftDot d = true then r <<< 1 else r).getLsbD j =
      if shiftDot d = true then decide (0 < j) && r.getLsbD (j - 1) else r.getLsbD j := by
    split
    · exact shiftLeft_one_getLsbD r hj
    · rfl
  unfold shifterNext shifterBit
  by_cases hreload : reloadDot d = true
  · by_cases hhalf : j < 8
    · rw [if_pos hreload, if_pos (And.intro hreload hhalf), withLowByte_getLsbD _ _ hj, if_pos hhalf, hlow hhalf]
    · rw [if_pos hreload, if_neg (mt And.right hhalf), withLowByte_getLsbD _ _ hj, if_neg hhalf, hshift]
  · rw [if_neg hreload, if_neg (mt And.left hreload), hshift]

/-- Settles O27: of the steps of a tick only `shiftAndReload` writes a shifter, each by `shifterNext`. -/
theorem backgroundShiftersOfATick : Obligations.BackgroundShiftersOfATick := by
  unfold Obligations.BackgroundShiftersOfATick
  intro s t htick hen hline j hj
  simp only [← reloadDot_iff, ← shiftDot_iff]
  obtain ⟨a, c, steps⟩ := exec_ppuTick_steps.1 htick
  have hshift := bgStep_shifters (steps.bgStep_eq hen hline)
  unfold Background.SameShifters at hshift
  rw [steps.bg_eq, hshift, shiftAndReload_bg, flagEvents_bg]
  exact ⟨shifterNext_getLsbD _ hj fun _ => rfl, shifterNext_getLsbD _ hj fun _ => rfl,
    shifterNext_getLsbD _ hj (spread_getLsbD _), shifterNext_getLsbD _ hj (spread_getLsbD _)⟩

/-! ## Fetches (R135 to R137) -/

theorem shiftAndReload_reads (d : Nat) (s : State) (a : BusAddr) :
    busRead (shiftAndReload d s) a = busRead s a := by
  rw [shiftAndReload_frame d s]
  exact busRead_congr rfl rfl rfl rfl a

theorem shiftAndReload_v (d : Nat) (s : State) : (shiftAndReload d s).ppu.v = s.ppu.v := by
  unfold shiftAndReload
  cases shiftDot d <;> cases reloadDot d <;> rfl

theorem shiftAndReload_ptAddr (d : Nat) (s : State) : ptAddr (shiftAndReload d s) = ptAddr s := by
  unfold ptAddr
  rw [shiftAndReload_v, (shiftAndReload_latches d s).1, shiftAndReload_frame d s]
  rfl

/-- At a dot of a fetch group the background pipeline after the tick is as the group's fetch leaves it. -/
theorem bgStep_of_group {line d place : Nat} {s t : State} (h : bgStep line d s = some t) (hd : groupDot d = true)
    (hplace : (d - 1) % 8 = place) :
    ∃ a, groupStep place (shiftAndReload d s) = some a ∧ t.ppu.bg = a.ppu.bg := by
  obtain ⟨a, b, ha, hb, rfl⟩ := bgStep_eq_some.1 h
  rw [groupWork, if_pos hd, hplace] at ha
  have hnot : ¬(d = 337 ∨ d = 339) := by rw [groupDot_iff] at hd; omega
  rw [unusedFetch, if_neg hnot] at hb
  cases hb
  exact ⟨a, ha, by rw [verticalCopy_bg, scrollWork_bg]⟩

/-- At dots 337 and 339 it is as the unused fetch leaves it. -/
theorem bgStep_of_unused {line d : Nat} {s t : State} (h : bgStep line d s = some t) (hd : d = 337 ∨ d = 339) :
    ∃ b, fetchNT (shiftAndReload d s) = some b ∧ t.ppu.bg = b.ppu.bg := by
  obtain ⟨a, b, ha, hb, rfl⟩ := bgStep_eq_some.1 h
  have hnot : ¬ groupDot d = true := by rw [groupDot_iff]; omega
  rw [groupWork, if_neg hnot] at ha
  cases ha
  have hscroll : scrollWork d (shiftAndReload d s) = shiftAndReload d s := by
    unfold scrollWork
    simp only
    rw [if_neg (by omega), if_neg (by omega)]
  rw [unusedFetch, if_pos hd, hscroll] at hb
  exact ⟨b, hb, by rw [verticalCopy_bg]⟩

section fetch
variable {s t : State}

theorem fetchNT_byte (h : fetchNT s = some t) : busRead s (ntFetchAddr s.ppu.v) = some t.ppu.bg.ntLatch := by
  obtain ⟨b, hb, rfl⟩ := Option.map_eq_some_iff.1 h
  exact hb

theorem fetchAT_bits (h : fetchAT s = some t) :
    ∃ b, busRead s (atFetchAddr s.ppu.v) = some b ∧ t.ppu.bg.atLatch = atBits s.ppu.v b := by
  obtain ⟨b, hb, rfl⟩ := Option.map_eq_some_iff.1 h
  exact ⟨b, hb, rfl⟩

theorem fetchPTLo_byte (h : fetchPTLo s = some t) : busRead s (ptAddr s) = some t.ppu.bg.ptLoLatch := by
  obtain ⟨b, hb, rfl⟩ := Option.map_eq_some_iff.1 h
  exact hb

theorem fetchPTHi_byte (h : fetchPTHi s = some t) : busRead s (ptAddr s + 8#14) = some t.ppu.bg.ptHiLatch := by
  obtain ⟨b, hb, rfl⟩ := Option.map_eq_some_iff.1 h
  exact hb

end fetch

/-- What the background step puts into the latches at the dots of each fetch; the fetches read the state the step starts
in, whose bus and scroll no shift changes. -/
theorem bgStep_fetches {line d : Nat} {s t : State} (h : bgStep line d s = some t) :
    ((groupDot d = true ∧ d % 8 = 1) ∨ d = 337 ∨ d = 339 →
      busRead s (ntFetchAddr s.ppu.v) = some t.ppu.bg.ntLatch) ∧
    (groupDot d = true ∧ d % 8 = 3 →
      ∃ b, busRead s (atFetchAddr s.ppu.v) = some b ∧ t.ppu.bg.atLatch = atBits s.ppu.v b) ∧
    (groupDot d = true ∧ d % 8 = 5 → busRead s (ptAddr s) = some t.ppu.bg.ptLoLatch) ∧
    (groupDot d = true ∧ d % 8 = 7 → busRead s (ptAddr s + 8#14) = some t.ppu.bg.ptHiLatch) := by
  rw [← shiftAndReload_v d s, ← shiftAndReload_ptAddr d s]
  simp only [← shiftAndReload_reads d s]
  refine ⟨fun hd => ?nametable, fun ⟨hg, hd⟩ => ?attr, fun ⟨hg, hd⟩ => ?patternLow, fun ⟨hg, hd⟩ => ?patternHigh⟩
  case nametable =>
    rcases hd with ⟨hg, hd⟩ | hd
    · obtain ⟨a, ha, hbg⟩ := bgStep_of_group (place := 0) h hg (by omega)
      rw [hbg]
      exact fetchNT_byte ha
    · obtain ⟨b, hb, hbg⟩ := bgStep_of_unused h hd
      rw [hbg]
      exact fetchNT_byte hb
  case attr =>
    obtain ⟨a, ha, hbg⟩ := bgStep_of_group (place := 2) h hg (by omega)
    rw [hbg]
    exact fetchAT_bits ha
  case patternLow =>
    obtain ⟨a, ha, hbg⟩ := bgStep_of_group (place := 4) h hg (by omega)
    rw [hbg]
    exact fetchPTLo_byte ha
  case patternHigh =>
    obtain ⟨a, ha, hbg⟩ := bgStep_of_group (place := 6) h hg (by omega)
    rw [hbg]
    exact fetchPTHi_byte ha

/-! ## The addresses, by the numbers in `v` -/

theorem ntFetchAddr_eq_ofNat (v : BitVec 15) : ntFetchAddr v = BitVec.ofNat 14 (0x2000 + v.toNat % 4096) := by
  have happend : ntFetchAddr v = 2#2 ++ v.extractLsb' 0 12 := by
    apply BitVec.eq_of_getLsbD_eq
    intro i hi
    rw [BitVec.getLsbD_append]
    interval_cases i <;> simp [ntFetchAddr, busAddr]
  apply BitVec.eq_of_toNat_eq
  rw [happend]
  refine (append_toNat _ _).trans ?_
  rw [extract_toNat, BitVec.toNat_ofNat, BitVec.toNat_ofNat]
  omega

theorem atFetchAddr_eq_ofNat (v : BitVec 15) :
    atFetchAddr v =
      BitVec.ofNat 14 (0x23C0 + v.toNat / 1024 % 4 * 1024 + v.toNat / 128 % 8 * 8 + v.toNat / 4 % 8) := by
  have happend : atFetchAddr v =
      2#2 ++ v.extractLsb' 10 2 ++ 0xF#4 ++ v.extractLsb' 7 3 ++ v.extractLsb' 2 3 := by
    apply BitVec.eq_of_getLsbD_eq
    intro i hi
    rw [BitVec.getLsbD_append, BitVec.getLsbD_append, BitVec.getLsbD_append, BitVec.getLsbD_append]
    interval_cases i <;> simp [atFetchAddr, busAddr]
  apply BitVec.eq_of_toNat_eq
  rw [happend]
  refine (append_toNat _ _).trans ?_
  simp only [append_toNat, extract_toNat, BitVec.toNat_ofNat, Nat.reducePow]
  omega

theorem atShiftOf_eq (v : BitVec 15) : atShiftOf v = v.toNat / 64 % 2 * 4 + v.toNat / 2 % 2 * 2 := by
  have happend : ((v >>> 4) &&& 0x04#15) ||| (v &&& 0x02#15) =
      0#12 ++ v.extractLsb' 6 1 ++ v.extractLsb' 1 1 ++ 0#1 := by
    apply BitVec.eq_of_getLsbD_eq
    intro i hi
    rw [BitVec.getLsbD_append, BitVec.getLsbD_append, BitVec.getLsbD_append]
    interval_cases i <;> simp
  rw [atShiftOf, happend]
  refine (append_toNat _ _).trans ?_
  simp only [append_toNat, extract_toNat, BitVec.toNat_ofNat, Nat.reducePow]
  omega

theorem atBits_toNat (v : BitVec 15) (b : Byte) :
    (atBits v b).toNat = b.toNat / 2 ^ (v.toNat / 64 % 2 * 4 + v.toNat / 2 % 2 * 2) % 4 := by
  rw [atBits, extract_toNat, BitVec.toNat_ushiftRight, Nat.shiftRight_eq_div_pow, pow_zero, Nat.div_one, atShiftOf_eq]
  rfl

/-- The number a background pattern fetch reads at, low plane (R137). -/
def patternNumber (p : Ppu) : Nat :=
  (if p.ctrl.getLsbD 4 then 0x1000 else 0) + p.bg.ntLatch.toNat * 16 + p.v.toNat / 4096

theorem ptAddr_eq_ofNat (s : State) : ptAddr s = BitVec.ofNat 14 (patternNumber s.ppu) := by
  rw [ptAddr, ptFetchAddr, fineY_toNat]
  rfl

theorem patternNumber_high (p : Ppu) : patternNumber p + 8 ≤ 0x1FFF := by
  unfold patternNumber
  split <;> omega

/-! ## With a mapper in the slot a tick completes (R155) -/

section completes
variable {s : State} (hm : s.mapper.isSome = true)
include hm

theorem busRead_map_isSome {α : Type} (a : BusAddr) (f : Byte → α) : ((busRead s a).map f).isSome = true := by
  obtain ⟨b, hb⟩ := busRead_some hm a
  rw [hb]
  rfl

theorem groupWork_isSome (d : Nat) : (groupWork d s).isSome = true := by
  unfold groupWork
  split
  · unfold groupStep
    split
    · exact busRead_map_isSome hm _ _
    · exact busRead_map_isSome hm _ _
    · exact busRead_map_isSome hm _ _
    · exact busRead_map_isSome hm _ _
    · rfl
    · rfl
  · rfl

theorem unusedFetch_isSome (d : Nat) : (unusedFetch d s).isSome = true := by
  unfold unusedFetch
  split
  · exact busRead_map_isSome hm _ _
  · rfl

theorem loadUnit_isSome (i : Nat) : (loadUnit s i).isSome = true := by
  obtain ⟨lo, hlo⟩ := busRead_some hm (unitFetchAddr s i)
  unfold loadUnit
  simp only
  rw [hlo]
  exact busRead_map_isSome hm _ _

theorem loadUnits_isSome (is : List Nat) (us : Vector SpriteUnit 8) : (loadUnits s is us).isSome = true := by
  induction is generalizing us with
  | nil => rfl
  | cons i is ih =>
    obtain ⟨u, hu⟩ := Option.isSome_iff_exists.1 (loadUnit_isSome hm i)
    rw [loadUnits, hu]
    exact ih _

theorem spriteStep_isSome (en : Bool) (line d : Nat) : (spriteStep en line d s).isSome = true := by
  unfold spriteStep
  split
  · split
    · rfl
    · split
      · rfl
      · split
        · split
          · rw [loadSprites, Option.isSome_map]
            exact loadUnits_isSome hm _ _
          · rfl
        · rfl
  · split
    · rfl
    · rfl

end completes

theorem BgFrame.mapper_eq {s t : State} (h : BgFrame s t) : t.mapper = s.mapper := by
  unfold BgFrame at h
  rw [h]
  rfl

theorem bgStep_isSome {s : State} (hm : s.mapper.isSome = true) (line d : Nat) : (bgStep line d s).isSome = true := by
  have hshift : (shiftAndReload d s).mapper.isSome = true := by rwa [(shiftAndReload_frame d s).mapper_eq]
  obtain ⟨a, ha⟩ := Option.isSome_iff_exists.1 (groupWork_isSome hshift d)
  have hscroll : (scrollWork d a).mapper.isSome = true := by
    rwa [(scrollWork_frame d a).mapper_eq, (groupWork_frame ha).mapper_eq]
  rw [bgStep, ha, Option.isSome_map]
  exact unusedFetch_isSome hscroll d

theorem backgroundStep_isSome {s : State} (hm : s.mapper.isSome = true) (en : Bool) (line d : Nat) :
    (backgroundStep en line d s).isSome = true := by
  unfold backgroundStep
  split
  · exact bgStep_isSome hm line d
  · rfl

theorem exec_ppuTick_of_mapper {s : State} (hm : s.mapper.isSome = true) : ∃ t, exec .ppuTick s = .next t := by
  have hflags : (flagEvents s).mapper.isSome = true := by rwa [flagEvents_frame]
  obtain ⟨a, ha⟩ := Option.isSome_iff_exists.1
    (backgroundStep_isSome hflags (renderingEnabled s.ppu.mask) s.ppu.scanline s.ppu.dot)
  have hpixel : (pixelStep (renderingEnabled s.ppu.mask) s.ppu.scanline s.ppu.dot a).mapper.isSome = true := by
    rw [pixelStep_frame, State.setPpu_mapper, (backgroundStep_frame ha).mapper_eq]
    exact hflags
  obtain ⟨c, hc⟩ := Option.isSome_iff_exists.1
    (spriteStep_isSome hpixel (renderingEnabled s.ppu.mask) s.ppu.scanline s.ppu.dot)
  exact ⟨_, exec_ppuTick_steps.2 ⟨a, c, ha, hc, rfl⟩⟩

/-- Settles O26: the latches of the state a tick leaves are those of the background step, which fetches from the state
the tick starts in, at the addresses by the numbers in `v`. -/
theorem backgroundFetchesOfATick : Obligations.BackgroundFetchesOfATick := by
  unfold Obligations.BackgroundFetchesOfATick
  intro s hm hen hline
  obtain ⟨t, htick⟩ := exec_ppuTick_of_mapper hm
  obtain ⟨a, c, steps⟩ := exec_ppuTick_steps.1 htick
  have hstep := steps.bgStep_eq hen hline
  obtain ⟨hnt, hat, hlo, hhi⟩ := bgStep_fetches hstep
  obtain ⟨knt, kat, klo, khi⟩ := bgStep_latches hstep
  simp only [flagEvents_bg, flagEvents_v, flagEvents_busRead, flagEvents_ptAddr, ← steps.bg_eq]
    at hnt hat hlo hhi knt kat klo khi
  have hpattern : ptAddr s + 8#14 = BitVec.ofNat 14 (patternNumber s.ppu + 8) := by
    rw [ptAddr_eq_ofNat, ← BitVec.ofNat_add]
  refine ⟨t, htick, ?_⟩
  simp only [← groupDot_iff, ← ntFetchAddr_eq_ofNat, ← atFetchAddr_eq_ofNat, ← atBits_toNat]
  refine ⟨patternNumber_high s.ppu, hnt, knt.resolve_right, fun hd => ?attr, kat.resolve_right, fun hd => ?low,
    klo.resolve_right, fun hd => ?high, khi.resolve_right⟩
  case attr =>
    obtain ⟨b, hb, hbits⟩ := hat hd
    exact ⟨b, hb, congrArg BitVec.toNat hbits⟩
  case low => exact (ptAddr_eq_ofNat s) ▸ hlo hd
  case high => exact hpattern ▸ hhi hd

end Sys2Proof.Machine
end

section
/-! PROOFS. The NMI of a frame (60_exceptions.md, R158, R159): the operations that can record an event, the position over
a session, and the sessions that signal no NMI. -/

namespace Sys2Proof.Machine

/-! ## The operations that record an event (R29, R158, R161) -/

/-- From `s` to `t` no event is recorded, and the parameters, secondary OAM and the host's side stay. -/
def SilentFrame (s t : State) : Prop :=
  t = { s with ppu := t.ppu, mapper := t.mapper, oam := t.oam, ntram := t.ntram, palette := t.palette, reply := t.reply }

theorem SilentFrame.trans {s t u : State} (h : SilentFrame s t) (k : SilentFrame t u) : SilentFrame s u := by
  unfold SilentFrame at *
  rw [k, h]

theorem busWrite_silentFrame {s t : State} {a : BusAddr} {d : Byte} (h : busWrite s a d = some t) : SilentFrame s t := by
  rcases busWrite_eq_some h with ⟨-, m, -, rfl⟩ | ⟨-, -, m, -, rfl⟩ | ⟨-, rfl⟩
  · rfl
  · rfl
  · rfl

theorem busStore_silentFrame {s t : State} {a : BusAddr} {d : Byte} (h : busStore s a d = .next t) : SilentFrame s t := by
  obtain ⟨u, hu, ⟨⟩⟩ := orNoCartridge_eq_next.1 h
  exact (busWrite_silentFrame hu).trans rfl

theorem ppudataReadEffect_silentFrame {s : State} {r : Byte × State} (h : ppudataReadEffect s = some r) :
    SilentFrame s r.2 := by
  unfold ppudataReadEffect at h
  simp only at h
  split at h
  · split at h
    · obtain ⟨b, -, rfl⟩ := Option.map_eq_some_iff.1 h; rfl
    · obtain ⟨b, -, rfl⟩ := Option.map_eq_some_iff.1 h; rfl
  · obtain ⟨b, -, rfl⟩ := Option.map_eq_some_iff.1 h; rfl

/-- Only a tick, a PPUCTRL write and an OAM DMA can record an event. -/
theorem exec_silentFrame {i : Instr} {s t : State} (tick : i ≠ .ppuTick) (ctrl : ∀ k d, i ≠ .ppuctrlW k d)
    (dma : ∀ page, i ≠ .oamdmaW page) (h : exec i s = .next t) : SilentFrame s t := by
  cases i
  case ppuTick => exact absurd rfl tick
  case ppuctrlW k d => exact absurd rfl (ctrl k d)
  case oamdmaW page => exact absurd rfl (dma page)
  case ppudataR k =>
    obtain ⟨r, hr, ⟨⟩⟩ := orNoCartridge_eq_next.1 h
    exact (ppudataReadEffect_silentFrame hr).trans rfl
  case ppudataP k =>
    obtain ⟨b, -, ⟨⟩⟩ := orNoCartridge_eq_next.1 h
    rfl
  case ppudataW k d =>
    obtain ⟨u, heffect, ⟨⟩⟩ := orNoCartridge_eq_next.1 h
    obtain ⟨c, hc, rfl⟩ := Option.map_eq_some_iff.1 heffect
    exact (show SilentFrame s (s.latch d) from rfl).trans ((busWrite_silentFrame hc).trans rfl)
  case mapFactory id =>
    change execMapFactory id s = .next t at h
    unfold execMapFactory at h
    split at h
    · cases h; rfl
    · cases h; rfl
  case mapTick | mapMirroring =>
    obtain ⟨m, -, ⟨⟩⟩ := withMapper_eq_next.1 h
    rfl
  case nromChrR | nromChrW | nromPrgR | nromPrgW | nromPeek | nromUnmappedR | nromUnmappedW =>
    obtain ⟨m, -, -, ⟨⟩⟩ := withNrom_eq_next.1 h
    rfl
  case mmc1PrgramR | mmc1PrgramW | mmc1WCtrl | mmc1WChr0 | mmc1WChr1 | mmc1WPrg | mmc1PrgLoR | mmc1PrgHiR
      | mmc1ChrLoR | mmc1ChrHiR | mmc1ChrW | mmc1Peek | mmc1UnmappedR | mmc1UnmappedW =>
    obtain ⟨m, r, -, -, ⟨⟩⟩ := withMmc1_eq_next.1 h
    rfl
  case uxromWBank | uxromPrgLoR | uxromPrgHiR | uxromChrR | uxromChrW | uxromPeek | uxromUnmappedR | uxromUnmappedW =>
    obtain ⟨m, b, -, -, ⟨⟩⟩ := withUxrom_eq_next.1 h
    rfl
  case cnromWBank | cnromChrR | cnromChrW | cnromPrgR | cnromPeek | cnromUnmappedR | cnromUnmappedW =>
    obtain ⟨m, b, -, -, ⟨⟩⟩ := withCnrom_eq_next.1 h
    rfl
  case pbusPtR | pbusPtP | pbusPalR | pbusPalP | pbusNtR | pbusNtP =>
    obtain ⟨b, -, ⟨⟩⟩ := orNoCartridge_eq_next.1 h
    rfl
  case pbusPtW | pbusPalW | pbusNtW => exact busStore_silentFrame h
  -- The other window rows, the power cycle, the reset and the two queries complete with a state written out.
  all_goals cases h; rfl

/-! ## The operations that signal no NMI -/

/-- The parameters and the number of NMI signals stay. -/
structure NoNmi (s t : State) : Prop where
  cfg : t.cfg = s.cfg
  count : t.history.count .nmiSignal = s.history.count .nmiSignal

theorem NoNmi.refl (s : State) : NoNmi s s := ⟨rfl, rfl⟩

theorem NoNmi.trans {s t u : State} (h : NoNmi s t) (k : NoNmi t u) : NoNmi s u :=
  ⟨k.cfg.trans h.cfg, k.count.trans h.count⟩

theorem SilentFrame.noNmi {s t : State} (h : SilentFrame s t) : NoNmi s t := by
  unfold SilentFrame at h
  rw [h]
  exact ⟨rfl, rfl⟩

/-- With `NMI_ON_CTRL_ENABLE` false no operation but a tick signals NMI. -/
theorem exec_noNmi {i : Instr} {s t : State} (hoff : s.cfg.nmiOnCtrlEnable = false) (tick : i ≠ .ppuTick)
    (h : exec i s = .next t) : NoNmi s t := by
  cases i
  case ppuctrlW k d =>
    obtain ⟨t', hexec, -⟩ := ppuctrlWrite k d s
    rw [hexec, if_neg (by simp [hoff])] at h
    cases h
    exact ⟨rfl, rfl⟩
  case oamdmaW page =>
    rw [exec_oamdmaW] at h
    split at h
    · cases h
    · cases h
      exact ⟨rfl, by simp⟩
  all_goals exact (exec_silentFrame tick (by simp) (by simp) h).noNmi

/-- A tick elsewhere than at (241, 1) signals no NMI. -/
theorem exec_ppuTick_noNmi {s t : State} (hpos : ¬(s.ppu.scanline = 241 ∧ s.ppu.dot = 1))
    (h : exec .ppuTick s = .next t) : NoNmi s t := by
  obtain ⟨a, c, steps⟩ := exec_ppuTick_steps.1 h
  have hflags : (flagEvents s).history = s.history := by
    by_cases hclear : s.ppu.scanline = 261 ∧ s.ppu.dot = 1
    · rw [flagEvents_preRender hclear.1 hclear.2]; rfl
    · rw [flagEvents_other hpos hclear]
  rw [steps.advanced, spriteStep_frame steps.sprites, pixelStep_frame, steps.before_pixel, hflags]
  exact ⟨rfl, rfl⟩

/-- The tick of (241, 1) signals one NMI, if bit 7 of `ctrl` is 1 (R123, R158). -/
theorem exec_ppuTick_vblank_count {s t : State} (hline : s.ppu.scanline = 241) (hdot : s.ppu.dot = 1)
    (h : exec .ppuTick s = .next t) :
    t.cfg = s.cfg ∧
      t.history.count .nmiSignal = s.history.count .nmiSignal + if s.ppu.ctrl.getLsbD 7 then 1 else 0 := by
  rw [flagEventsAndIdleTicks.1 s hline hdot] at h
  cases h
  refine ⟨rfl, ?_⟩
  dsimp only
  split
  · simp
  · rfl

/-! ## The position over a session (R126, R129, R130) -/

/-- The position is one of a frame (R23). -/
def Ppu.InFrame (p : Ppu) : Prop := p.scanline < 262 ∧ p.dot < 341

theorem Ppu.InFrame.vblank_iff {p : Ppu} (h : p.InFrame) : (p.scanline = 241 ∧ p.dot = 1) ↔ dotIndex p = 82182 := by
  obtain ⟨hline, hdot⟩ := h
  unfold dotIndex
  omega

/-- A tick goes on to the next dot, or from one of the last two dots of a frame to (0, 0). -/
theorem exec_ppuTick_dotIndex {s t : State} (hframe : s.ppu.InFrame) (h : exec .ppuTick s = .next t) :
    t.ppu.InFrame ∧ (dotIndex t.ppu = dotIndex s.ppu + 1 ∨ (dotIndex t.ppu = 0 ∧ 89340 ≤ dotIndex s.ppu)) := by
  obtain ⟨hline, hdot⟩ := hframe
  obtain ⟨hnext, hbounds⟩ := tickAdvancesPosition s t h
  refine ⟨hbounds hline hdot, ?_⟩
  unfold dotIndex
  split_ifs at hnext
  all_goals
    simp only [Prod.mk.injEq] at hnext
    omega

/-- No operation but a tick, a power cycle or a reset moves the position. -/
theorem exec_dotIndex {i : Instr} {s t : State} (tick : i ≠ .ppuTick) (life : i ≠ .ppuPowerCycle ∧ i ≠ .ppuReset)
    (hframe : s.ppu.InFrame) (h : exec i s = .next t) : t.ppu.InFrame ∧ dotIndex t.ppu = dotIndex s.ppu := by
  have hwindow : WindowFrame s t := exec_windowOutcome s tick life.1 life.2 t h
  unfold WindowFrame at hwindow
  rw [hwindow]
  exact ⟨hframe, rfl⟩

/-- A session keeps what each of its operations keeps; `R n u` speaks of a state `u` with `n` ticks of the session still
to come. -/
theorem execAll_keeps {R : Nat → State → Prop}
    (tick : ∀ n u v, R (n + 1) u → exec .ppuTick u = .next v → R n v)
    (other : ∀ n i u v, i ≠ .ppuTick → i ≠ .ppuPowerCycle ∧ i ≠ .ppuReset → R n u → exec i u = .next v → R n v)
    {is : List Instr} {s t : State} (life : ∀ i ∈ is, i ≠ .ppuPowerCycle ∧ i ≠ .ppuReset)
    (h : execAll is s = .next t) (start : R (is.count .ppuTick) s) : R 0 t := by
  induction is generalizing s with
  | nil => cases h; exact start
  | cons i is ih =>
    obtain ⟨u, hi, hrest⟩ := execAll_cons_eq_next.1 h
    obtain ⟨lifeHead, lifeRest⟩ := List.forall_mem_cons.1 life
    by_cases htick : i = .ppuTick
    · subst htick
      rw [List.count_cons_self] at start
      exact ih lifeRest hrest (tick _ s u start hi)
    · rw [List.count_cons_of_ne htick] at start
      exact ih lifeRest hrest (other _ i s u htick lifeHead start hi)

/-- From `u` the position number `last` is `n` ticks away, with no frame's end between. -/
def TicksBefore (last n : Nat) (u : State) : Prop := u.ppu.InFrame ∧ dotIndex u.ppu + n = last

theorem TicksBefore.tick {last n : Nat} {u v : State} (hlast : last < 89341) (h : TicksBefore last (n + 1) u)
    (hexec : exec .ppuTick u = .next v) : TicksBefore last n v := by
  obtain ⟨uframe, udot⟩ := h
  obtain ⟨vframe, vdot⟩ := exec_ppuTick_dotIndex uframe hexec
  exact ⟨vframe, by omega⟩

theorem TicksBefore.other {last n : Nat} {i : Instr} {u v : State} (h : TicksBefore last n u) (htick : i ≠ .ppuTick)
    (life : i ≠ .ppuPowerCycle ∧ i ≠ .ppuReset) (hexec : exec i u = .next v) : TicksBefore last n v := by
  obtain ⟨uframe, udot⟩ := h
  obtain ⟨vframe, vdot⟩ := exec_dotIndex htick life uframe hexec
  exact ⟨vframe, by omega⟩

/-- Where no frame can have ended, each tick of a session moves the position on by one dot. -/
theorem execAll_dotIndex {is : List Instr} {s t : State} (hframe : s.ppu.InFrame)
    (life : ∀ i ∈ is, i ≠ .ppuPowerCycle ∧ i ≠ .ppuReset) (hticks : dotIndex s.ppu + is.count .ppuTick < 89341)
    (h : execAll is s = .next t) : t.ppu.InFrame ∧ dotIndex t.ppu = dotIndex s.ppu + is.count .ppuTick := by
  obtain ⟨tframe, tdot⟩ : TicksBefore (dotIndex s.ppu + is.count .ppuTick) 0 t :=
    execAll_keeps (fun _ _ _ hu => hu.tick hticks) (fun _ _ _ _ htick hlife hu => hu.other htick hlife) life h
      ⟨hframe, rfl⟩
  exact ⟨tframe, by omega⟩

/-! ## The sessions that signal no NMI -/

/-- A number of ticks that surely come before the next tick of (241, 1). Where this frame's is past, that tick is the next
frame's, and this frame is counted as the shorter of R128. -/
def ticksToVblank (p : Ppu) : Nat :=
  if dotIndex p ≤ 82182 then 82182 - dotIndex p else 89341 - dotIndex p + 82182

/-- A tick uses up at most one of them. -/
theorem exec_ppuTick_ticksToVblank {s t : State} (hframe : s.ppu.InFrame) (h : exec .ppuTick s = .next t) :
    ticksToVblank s.ppu ≤ ticksToVblank t.ppu + 1 := by
  obtain ⟨-, hnext⟩ := exec_ppuTick_dotIndex hframe h
  unfold ticksToVblank
  split_ifs <;> omega

/-- From `s` to `u` no NMI was signalled, and none will be in `n` ticks more. -/
structure QuietFor (s : State) (n : Nat) (u : State) : Prop where
  off : u.cfg.nmiOnCtrlEnable = false
  frame : u.ppu.InFrame
  ticks : n ≤ ticksToVblank u.ppu
  noNmi : NoNmi s u

theorem QuietFor.tick {s u v : State} {n : Nat} (h : QuietFor s (n + 1) u) (hexec : exec .ppuTick u = .next v) :
    QuietFor s n v := by
  obtain ⟨off, frame, ticks, noNmi⟩ := h
  have hpos : ¬(u.ppu.scanline = 241 ∧ u.ppu.dot = 1) := by
    rw [frame.vblank_iff]
    intro hdot
    rw [ticksToVblank, hdot] at ticks
    exact absurd ticks (Nat.not_succ_le_zero n)
  have hstep : NoNmi u v := exec_ppuTick_noNmi hpos hexec
  have hticks := exec_ppuTick_ticksToVblank frame hexec
  exact ⟨hstep.cfg ▸ off, (exec_ppuTick_dotIndex frame hexec).1, by omega, noNmi.trans hstep⟩

theorem QuietFor.other {s u v : State} {n : Nat} {i : Instr} (h : QuietFor s n u) (htick : i ≠ .ppuTick)
    (life : i ≠ .ppuPowerCycle ∧ i ≠ .ppuReset) (hexec : exec i u = .next v) : QuietFor s n v := by
  obtain ⟨off, frame, ticks, noNmi⟩ := h
  have hstep : NoNmi u v := exec_noNmi off htick hexec
  obtain ⟨vframe, hdot⟩ := exec_dotIndex htick life frame hexec
  exact ⟨hstep.cfg ▸ off, vframe, by rwa [ticksToVblank, hdot], noNmi.trans hstep⟩

/-- A session that ends before the tick of (241, 1) comes up signals no NMI. -/
theorem execAll_noNmi {is : List Instr} {s t : State} (hoff : s.cfg.nmiOnCtrlEnable = false) (hframe : s.ppu.InFrame)
    (life : ∀ i ∈ is, i ≠ .ppuPowerCycle ∧ i ≠ .ppuReset) (hticks : is.count .ppuTick ≤ ticksToVblank s.ppu)
    (h : execAll is s = .next t) : NoNmi s t :=
  (execAll_keeps (R := QuietFor s) (fun _ _ _ hu => hu.tick) (fun _ _ _ _ htick hlife hu => hu.other htick hlife) life h
    ⟨hoff, hframe, hticks, .refl s⟩).noNmi

/-- Settles O17: no NMI before the tick of (241, 1) nor after it, and at it one if bit 7 of `ctrl` is 1. -/
theorem nmiOncePerFrame : Obligations.NmiOncePerFrame := by
  unfold Obligations.NmiOncePerFrame
  intro before after s a b t hline hdot hoff life hbefore hafter ha hb ht
  obtain ⟨lifeBefore, lifeAfter⟩ := List.forall_mem_append.1 life
  have sframe : s.ppu.InFrame := by rw [Ppu.InFrame, hline, hdot]; decide
  have sdot : dotIndex s.ppu = 0 := by rw [dotIndex, hline, hdot]
  have aquiet : before.count .ppuTick ≤ ticksToVblank s.ppu := by rw [ticksToVblank, sdot, hbefore]; decide
  obtain ⟨acfg, acount⟩ := execAll_noNmi hoff sframe lifeBefore aquiet ha
  obtain ⟨aframe, aindex⟩ := execAll_dotIndex sframe lifeBefore (by omega) ha
  obtain ⟨aline, adot⟩ := aframe.vblank_iff.2 (by omega)
  obtain ⟨bcfg, bcount⟩ := exec_ppuTick_vblank_count aline adot hb
  obtain ⟨bframe, bindex⟩ := exec_ppuTick_dotIndex aframe hb
  have bquiet : after.count .ppuTick ≤ ticksToVblank b.ppu := by
    rw [ticksToVblank, if_neg (by omega)]
    omega
  have tcount := (execAll_noNmi (by rwa [bcfg, acfg]) bframe lifeAfter bquiet ht).count
  exact ⟨aline, adot, by rw [tcount, bcount, acount]⟩

end Sys2Proof.Machine
end

section
/-! PROOFS. Construction, `power_cycle()`, `reset()` and the two queries (70_reset_and_hazards.md): their next states. -/

namespace Sys2Proof.Machine

/-! ## Power cycle and reset (R174, R175) -/

/-- Nothing of the old PPU survives a power cycle: warm reset and the fields it adds are all the fields (R172, R174). -/
theorem powerCycle_eq_initial (p : Ppu) : powerCycle p = Ppu.initial := rfl

theorem warmReset_warmReset (p : Ppu) : warmReset (warmReset p) = warmReset p := rfl

theorem exec_ppuPowerCycle (s : State) :
    exec .ppuPowerCycle s = .next { s with ppu := Ppu.initial, reply := .none } :=
  congrArg (fun p => done (s.setPpu p)) (powerCycle_eq_initial s.ppu)

theorem exec_ppuReset (s : State) :
    exec .ppuReset s = .next { s with ppu := warmReset s.ppu, reply := .none } := rfl

/-- An operation that changes nothing in the state it leads to is done twice as it is done once. -/
theorem execAll_twice {i : Instr} {s t : State} (first : exec i s = .next t) (again : exec i t = .next t) :
    execAll [i, i] s = exec i s := by
  rw [first]
  exact execAll_cons_eq_next.2 ⟨t, first, execAll_cons_eq_next.2 ⟨t, again, rfl⟩⟩

theorem execAll_ppuPowerCycle_twice (s : State) : execAll [.ppuPowerCycle, .ppuPowerCycle] s = exec .ppuPowerCycle s :=
  execAll_twice (exec_ppuPowerCycle s) (exec_ppuPowerCycle _)

theorem execAll_ppuReset_twice (s : State) : execAll [.ppuReset, .ppuReset] s = exec .ppuReset s := by
  refine execAll_twice (exec_ppuReset s) ?_
  rw [exec_ppuReset, warmReset_warmReset]

/-! ## The queries (R118, R119) -/

theorem exec_ppuFramebuffer (s : State) :
    exec .ppuFramebuffer s = .next { s with reply := .picture s.ppu.framebuffer } := rfl

theorem exec_ppuFrameCount (s : State) :
    exec .ppuFrameCount s = .next { s with reply := .frames s.ppu.frameCount } := rfl

/-! ## The two statements -/

@[simp] theorem Framebuffer.get_nil (y x : Nat) : Framebuffer.get [] y x = 0 := rfl

/-- Settles O9: the fields at construction are read off, and a power cycle leads to `Ppu.initial` from any PPU. -/
theorem constructionValues : Obligations.ConstructionValues := by
  unfold Obligations.ConstructionValues
  intro cfg oam soam ntram palette
  exact ⟨rfl, Framebuffer.get_nil, rfl, rfl, rfl, rfl, rfl, rfl, rfl, exec_ppuPowerCycle, rfl⟩

/-- Settles O12: the next states of the four operations; the second power cycle finds `Ppu.initial`, and the second reset
a PPU that is reset already. -/
theorem lifecycleAndQueries : Obligations.LifecycleAndQueries := by
  unfold Obligations.LifecycleAndQueries
  intro s
  refine ⟨exec_ppuPowerCycle s, exec_ppuReset s, ?twice, exec_ppuFramebuffer s, exec_ppuFrameCount s⟩
  rintro op (rfl | rfl)
  · exact execAll_ppuPowerCycle_twice s
  · exact execAll_ppuReset_twice s

end Sys2Proof.Machine
end

section
/-! PROOFS. The round trip of encoding (30_encoding.md): the operation of a word has that word, target by target, and
the two statements. -/

namespace Sys2Proof
open Sys2Proof.Machine Sys2Proof.Laws

/-- Settles O1: the round trip of each of the 83 rows. -/
theorem decodeOfEncode : Obligations.DecodeOfEncode := by
  unfold Obligations.DecodeOfEncode
  intro i
  cases i
  exacts [
    RoundTrip.ppuctrlR _, RoundTrip.ppuctrlP _, RoundTrip.ppuctrlW _ _, RoundTrip.ppumaskR _, RoundTrip.ppumaskP _,
    RoundTrip.ppumaskW _ _, RoundTrip.ppustatusR _, RoundTrip.ppustatusP _, RoundTrip.ppustatusW _ _,
    RoundTrip.oamaddrR _, RoundTrip.oamaddrP _, RoundTrip.oamaddrW _ _, RoundTrip.oamdataR _, RoundTrip.oamdataP _,
    RoundTrip.oamdataW _ _, RoundTrip.ppuscrollR _, RoundTrip.ppuscrollP _, RoundTrip.ppuscrollW _ _,
    RoundTrip.ppuaddrR _, RoundTrip.ppuaddrP _, RoundTrip.ppuaddrW _ _, RoundTrip.ppudataR _, RoundTrip.ppudataP _,
    RoundTrip.ppudataW _ _, RoundTrip.oamdmaR, RoundTrip.oamdmaP, RoundTrip.oamdmaW _, RoundTrip.winOutsideR _,
    RoundTrip.winOutsideP _, RoundTrip.winOutsideW _ _, RoundTrip.nromChrR _, RoundTrip.nromChrW _ _,
    RoundTrip.nromPrgR _, RoundTrip.nromPrgW _ _, RoundTrip.nromPeek _, RoundTrip.nromUnmappedR _,
    RoundTrip.nromUnmappedW _ _, RoundTrip.mmc1PrgramR _, RoundTrip.mmc1PrgramW _ _, RoundTrip.mmc1WCtrl _ _,
    RoundTrip.mmc1WChr0 _ _, RoundTrip.mmc1WChr1 _ _, RoundTrip.mmc1WPrg _ _, RoundTrip.mmc1PrgLoR _,
    RoundTrip.mmc1PrgHiR _, RoundTrip.mmc1ChrLoR _, RoundTrip.mmc1ChrHiR _, RoundTrip.mmc1ChrW _ _,
    RoundTrip.mmc1Peek _, RoundTrip.mmc1UnmappedR _, RoundTrip.mmc1UnmappedW _ _, RoundTrip.uxromWBank _ _,
    RoundTrip.uxromPrgLoR _, RoundTrip.uxromPrgHiR _, RoundTrip.uxromChrR _, RoundTrip.uxromChrW _ _,
    RoundTrip.uxromPeek _, RoundTrip.uxromUnmappedR _, RoundTrip.uxromUnmappedW _ _, RoundTrip.cnromWBank _ _,
    RoundTrip.cnromChrR _, RoundTrip.cnromChrW _ _, RoundTrip.cnromPrgR _, RoundTrip.cnromPeek _,
    RoundTrip.cnromUnmappedR _, RoundTrip.cnromUnmappedW _ _, RoundTrip.pbusPtR _, RoundTrip.pbusPalR _,
    RoundTrip.pbusNtR _, RoundTrip.pbusPtW _ _, RoundTrip.pbusPalW _ _, RoundTrip.pbusNtW _ _, RoundTrip.pbusPtP _,
    RoundTrip.pbusPalP _, RoundTrip.pbusNtP _, RoundTrip.ppuTick, RoundTrip.ppuPowerCycle, RoundTrip.ppuReset,
    RoundTrip.ppuFramebuffer, RoundTrip.ppuFrameCount, RoundTrip.mapFactory _, RoundTrip.mapTick,
    RoundTrip.mapMirroring]

/-! ## The operation a word spells -/

/-- `w` is the word of `i`, whose operand its row admits and whose row the slot lets be selected (R54, R58). -/
def Spells (slot : Option Variant) (w : Word) (i : Instr) : Prop := encode i = w ∧ i.wf = true ∧ i.rowIn slot

/-- The window (R38, R97). -/
theorem spells_decodeWin (slot : Option Variant) (a : Addr) (d : Byte) :
    Spells slot (mkWord 0#4 0#4 a 0#8) (decodeWinR a) ∧ Spells slot (mkWord 0#4 1#4 a d) (decodeWinW a d) ∧
    Spells slot (mkWord 0#4 2#4 a 0#8) (decodeWinP a) := by
  unfold decodeWinR decodeWinW decodeWinP
  by_cases hwin : a.extractLsb' 13 3 = 1#3
  case pos =>
    have haddr := winAddr_extract hwin
    have hword := fun o d => congrArg (mkWord 0#4 o · d) haddr
    simp only [if_pos hwin]
    rcases bitVec3_cases (a.extractLsb' 0 3) with h | h | h | h | h | h | h | h <;> rw [h] at hword ⊢ <;>
      exact ⟨⟨hword _ _, rfl, .inl rfl⟩, ⟨hword _ _, rfl, .inl rfl⟩, ⟨hword _ _, rfl, .inl rfl⟩⟩
  case neg =>
    simp only [if_neg hwin]
    by_cases hdma : a = dmaAddr
    · subst hdma
      exact ⟨⟨rfl, rfl, .inl rfl⟩, ⟨rfl, rfl, .inl rfl⟩, ⟨rfl, rfl, .inl rfl⟩⟩
    · have hout : (!inWindow a) = true := by simpa [inWindow, hwin] using show a ≠ 0x4014#16 from hdma
      simp only [if_neg hdma]
      exact ⟨⟨rfl, hout, .inl rfl⟩, ⟨rfl, hout, .inl rfl⟩, ⟨rfl, hout, .inl rfl⟩⟩

/-! ## The cartridge (R39) -/

theorem serialAddr_extract {a : Addr} (h : 0x8000 ≤ a.toNat) :
    serialAddr (a.extractLsb' 13 2) (a.extractLsb' 0 13) = a := by
  apply BitVec.eq_of_toNat_eq
  rw [serialAddr_toNat, extract_toNat, extract_toNat]; omega

theorem prgRamAddr_extract {a : Addr} (lo : 0x6000 ≤ a.toNat) (hi : ¬ 0x8000 ≤ a.toNat) :
    prgRamAddr (a.extractLsb' 0 13) = a := by
  apply BitVec.eq_of_toNat_eq
  rw [prgRamAddr_toNat, extract_toNat]; omega

/-- A cartridge row's operand stands for the address `b`; where that is the one decoded, the row has the word. -/
theorem spells_cartWord {v : Variant} {o : BitVec 4} {a b : Addr} {d : Byte} {i : Instr} (haddr : b = a)
    (hword : encode i = cartWord o b d) (hwf : i.wf = true) (hv : i.variant? = some v) :
    Spells (some v) (mkWord 1#4 o a d) i :=
  ⟨hword.trans (congrArg (mkWord 1#4 o · d) haddr), hwf, .inr hv⟩

/-- Where no range of the variant holds the address, the row of the unmapped addresses is well formed. -/
theorem not_maps_of_between {v : Variant} {a : Addr} (hchr : ¬ a.toNat < 0x2000) (hprg : ¬ 0x8000 ≤ a.toNat)
    (hram : v = .mmc1 → ¬ 0x6000 ≤ a.toNat) : (!v.maps a) = true := by
  rw [Variant.maps_eq_false_iff.2 ⟨hchr, hprg, hram⟩]; rfl

/-- What holds of the row of each range holds of the row an address selects. -/
theorem row_of_cartRanges {P : Instr → Prop} {a : Addr} {i j k : Instr} (chr : a.toNat < 0x2000 → P i)
    (prg : 0x8000 ≤ a.toNat → P j) (between : ¬ a.toNat < 0x2000 → ¬ 0x8000 ≤ a.toNat → P k) :
    P (if a.extractLsb' 13 3 = 0#3 then i else if a.extractLsb' 15 1 = 1#1 then j else k) :=
  cartRanges (R := fun i _ => P i) (x := ()) (y := ()) (z := ()) chr prg between

theorem spells_decodeCartR (v : Variant) (a : Addr) : Spells (some v) (mkWord 1#4 0#4 a 0#8) (decodeCartR v a) := by
  cases v
  case nrom | cnrom =>
    refine row_of_cartRanges (fun hchr => ?chr) (fun hprg => ?prg) (fun hchr hprg => ?unmapped)
    case chr => exact spells_cartWord (chrAddr_extract hchr) rfl rfl rfl
    case prg => exact spells_cartWord (prgAddr_extract hprg) rfl rfl rfl
    case unmapped => exact spells_cartWord rfl rfl (not_maps_of_between hchr hprg nofun) rfl
  case mmc1 =>
    refine row_of_cartRanges (fun hchr => ?chr) (fun hprg => ?prg) (fun hchr hprg => ?below)
    case chr =>
      simp only [chrLoRange_iff hchr]
      split
      · next hlo => exact spells_cartWord (chrLoAddr_extract hlo) rfl rfl rfl
      · next hhi => exact spells_cartWord (chrHiAddr_extract (Nat.not_lt.1 hhi) hchr) rfl rfl rfl
    case prg =>
      simp only [prgLoRange_iff hprg]
      split
      · next hlo => exact spells_cartWord (prgLoAddr_extract hprg hlo) rfl rfl rfl
      · next hhi => exact spells_cartWord (prgHiAddr_extract (Nat.not_lt.1 hhi)) rfl rfl rfl
    case below =>
      simp only [prgRamRange_iff hprg]
      split
      · next hram => exact spells_cartWord (prgRamAddr_extract hram hprg) rfl rfl rfl
      · next hram => exact spells_cartWord rfl rfl (not_maps_of_between hchr hprg fun _ => hram) rfl
  case uxrom =>
    refine row_of_cartRanges (fun hchr => ?chr) (fun hprg => ?prg) (fun hchr hprg => ?unmapped)
    case chr => exact spells_cartWord (chrAddr_extract hchr) rfl rfl rfl
    case prg =>
      simp only [prgLoRange_iff hprg]
      split
      · next hlo => exact spells_cartWord (prgLoAddr_extract hprg hlo) rfl rfl rfl
      · next hhi => exact spells_cartWord (prgHiAddr_extract (Nat.not_lt.1 hhi)) rfl rfl rfl
    case unmapped => exact spells_cartWord rfl rfl (not_maps_of_between hchr hprg nofun) rfl

theorem spells_decodeCartW (v : Variant) (a : Addr) (d : Byte) :
    Spells (some v) (mkWord 1#4 1#4 a d) (decodeCartW v a d) := by
  cases v
  case nrom | uxrom | cnrom =>
    refine row_of_cartRanges (fun hchr => ?chr) (fun hprg => ?prg) (fun hchr hprg => ?unmapped)
    case chr => exact spells_cartWord (chrAddr_extract hchr) rfl rfl rfl
    case prg => exact spells_cartWord (prgAddr_extract hprg) rfl rfl rfl
    case unmapped => exact spells_cartWord rfl rfl (not_maps_of_between hchr hprg nofun) rfl
  case mmc1 =>
    refine row_of_cartRanges (fun hchr => ?chr) (fun hprg => ?serial) (fun hchr hprg => ?below)
    case chr => exact spells_cartWord (chrAddr_extract hchr) rfl rfl rfl
    case serial =>
      have haddr := serialAddr_extract hprg
      have last : ∀ q : BitVec 2, q ≠ 0#2 → q ≠ 1#2 → q ≠ 2#2 → q = 3#2 := by decide
      split
      · next hsel => exact spells_cartWord (hsel ▸ haddr) rfl rfl rfl
      · next hsel => exact spells_cartWord (hsel ▸ haddr) rfl rfl rfl
      · next hsel => exact spells_cartWord (hsel ▸ haddr) rfl rfl rfl
      · next h0 h1 h2 => exact spells_cartWord (last _ h0 h1 h2 ▸ haddr) rfl rfl rfl
    case below =>
      simp only [prgRamRange_iff hprg]
      split
      · next hram => exact spells_cartWord (prgRamAddr_extract hram hprg) rfl rfl rfl
      · next hram => exact spells_cartWord rfl rfl (not_maps_of_between hchr hprg fun _ => hram) rfl

theorem spells_decodeCartP (v : Variant) (a : Addr) : Spells (some v) (mkWord 1#4 2#4 a 0#8) (decodeCartP v a) := by
  cases v
  all_goals exact spells_cartWord rfl rfl rfl rfl

/-! ## The PPU bus (R41) -/

theorem ptBusAddr_extract {a : BusAddr} (h : a.extractLsb' 13 1 = 0#1) : ptBusAddr (a.extractLsb' 0 13) = a := by
  rw [extract_eq_iff, BitVec.toNat_ofNat] at h
  apply BitVec.eq_of_toNat_eq
  rw [ptBusAddr_toNat, extract_toNat]; omega

theorem ntBusAddr_extract {a : BusAddr} (h : ¬ a.extractLsb' 13 1 = 0#1) : ntBusAddr (a.extractLsb' 0 13) = a := by
  rw [extract_eq_iff, BitVec.toNat_ofNat] at h
  apply BitVec.eq_of_toNat_eq
  rw [ntBusAddr_toNat, extract_toNat]; omega

theorem palBusAddr_extract {a : BusAddr} (hnt : ¬ a.extractLsb' 13 1 = 0#1) (hpal : a.extractLsb' 8 5 = 0x1F#5) :
    palBusAddr (a.extractLsb' 0 8) = a := by
  rw [extract_eq_iff, BitVec.toNat_ofNat] at hnt hpal
  apply BitVec.eq_of_toNat_eq
  rw [palBusAddr_toNat, extract_toNat]; omega

theorem spells_decodeBus (slot : Option Variant) (a : BusAddr) (d : Byte) :
    Spells slot (busWord 0#4 a 0#8) (decodeBusR a) ∧ Spells slot (busWord 1#4 a d) (decodeBusW a d) ∧
    Spells slot (busWord 2#4 a 0#8) (decodeBusP a) := by
  unfold decodeBusR decodeBusW decodeBusP
  by_cases hpt : a.extractLsb' 13 1 = 0#1
  · have hword := fun o d => congrArg (busWord o · d) (ptBusAddr_extract hpt)
    simp only [if_pos hpt]
    exact ⟨⟨hword _ _, rfl, .inl rfl⟩, ⟨hword _ _, rfl, .inl rfl⟩, ⟨hword _ _, rfl, .inl rfl⟩⟩
  simp only [if_neg hpt]
  by_cases hpal : a.extractLsb' 8 5 = 0x1F#5
  · have hword := fun o d => congrArg (busWord o · d) (palBusAddr_extract hpt hpal)
    simp only [if_pos hpal]
    exact ⟨⟨hword _ _, rfl, .inl rfl⟩, ⟨hword _ _, rfl, .inl rfl⟩, ⟨hword _ _, rfl, .inl rfl⟩⟩
  · have hword := fun o d => congrArg (busWord o · d) (ntBusAddr_extract hpt)
    have hwf : (!((a.extractLsb' 0 13).extractLsb' 8 5 == 0x1F#5)) = true := by
      rw [← ntBusAddr_bits_8_5, ntBusAddr_extract hpt]
      simpa using hpal
    simp only [if_neg hpal]
    exact ⟨⟨hword _ _, hwf, .inl rfl⟩, ⟨hword _ _, hwf, .inl rfl⟩, ⟨hword _ _, hwf, .inl rfl⟩⟩

theorem busWordAddr_extract {a : Addr} (h : a.extractLsb' 14 2 = 0#2) : busWordAddr (a.extractLsb' 0 14) = a := by
  rw [extract_eq_iff, BitVec.toNat_ofNat] at h
  apply BitVec.eq_of_toNat_eq
  rw [busWordAddr_toNat, extract_toNat]; omega

/-! ## Every word -/

theorem onSlot_eq_ok {slot : Option Variant} {f : Variant → Instr} {i : Instr} :
    onSlot slot f = .ok i ↔ ∃ v, slot = some v ∧ f v = i := by
  cases slot <;> simp [onSlot]

theorem spells_of_decodeFields {slot : Option Variant} {t o : BitVec 4} {a : Addr} {d : Byte} {i : Instr}
    (h : decodeFields slot t o a d = .ok i) : Spells slot (mkWord t o a d) i := by
  by_cases hlegal : LegalPair t o
  case neg => rw [decodeFields_of_not_legal hlegal] at h; cases h
  obtain ⟨winR, winW, winP⟩ := spells_decodeWin slot a d
  obtain ⟨busR, busW, busP⟩ := spells_decodeBus slot (a.extractLsb' 0 14) d
  unfold busWord at busR busW busP
  cases hlegal with
  | winR => obtain ⟨rfl, ⟨⟩⟩ := whenZero_eq_ok.1 h; exact winR
  | winW => cases h; exact winW
  | winP => obtain ⟨rfl, ⟨⟩⟩ := whenZero_eq_ok.1 h; exact winP
  | cartR =>
    obtain ⟨rfl, hslot⟩ := whenZero_eq_ok.1 h
    obtain ⟨v, rfl, rfl⟩ := onSlot_eq_ok.1 hslot
    exact spells_decodeCartR v a
  | cartW =>
    obtain ⟨v, rfl, rfl⟩ := onSlot_eq_ok.1 h
    exact spells_decodeCartW v a d
  | cartP =>
    obtain ⟨rfl, hslot⟩ := whenZero_eq_ok.1 h
    obtain ⟨v, rfl, rfl⟩ := onSlot_eq_ok.1 hslot
    exact spells_decodeCartP v a
  | busR =>
    obtain ⟨rfl, hbus⟩ := whenZero_eq_ok.1 h
    obtain ⟨ha, ⟨⟩⟩ := whenZero_eq_ok.1 hbus
    rwa [busWordAddr_extract ha] at busR
  | busW =>
    obtain ⟨ha, ⟨⟩⟩ := whenZero_eq_ok.1 h
    rwa [busWordAddr_extract ha] at busW
  | busP =>
    obtain ⟨rfl, hbus⟩ := whenZero_eq_ok.1 h
    obtain ⟨ha, ⟨⟩⟩ := whenZero_eq_ok.1 hbus
    rwa [busWordAddr_extract ha] at busP
  | mapFactory => obtain ⟨rfl, ⟨⟩⟩ := whenZero_eq_ok.1 h; exact ⟨rfl, rfl, .inl rfl⟩
  | _ =>
    obtain ⟨rfl, hzero⟩ := whenZero_eq_ok.1 h
    obtain ⟨rfl, ⟨⟩⟩ := whenZero_eq_ok.1 hzero
    exact ⟨rfl, rfl, .inl rfl⟩

/-- Settles O2: a word is its fields, and each legal pair's decoder answers an operation whose word has those fields. -/
theorem encodeOfDecode : Obligations.EncodeOfDecode := by
  unfold Obligations.EncodeOfDecode
  intro slot w i h
  rw [← mkWord_fields w]
  exact spells_of_decodeFields h

end Sys2Proof
end

section
/-! PROOFS. What a tick leaves unchanged (42_ppu_timing.md, R121) and the value of `v` it leaves (43_ppu_render.md
sections 2 and 3). -/

namespace Sys2Proof.Machine

/-! ## The fields a tick writes, by the steps that write them -/

section steps
variable {s a c t : State} (h : TickSteps s a c t)
include h

theorem TickSteps.dotFrame : DotFrame s c := dotWork_frame (dotWork_eq_some.2 ⟨a, h.background, h.sprites⟩)

/-- The whole state before the sprite pipeline's step. -/
theorem TickSteps.before_sprites :
    pixelStep (renderingEnabled s.ppu.mask) s.ppu.scanline s.ppu.dot a =
      { s with
        ppu := { s.ppu with
                 vblank := (flagEvents s).ppu.vblank, overflow := (flagEvents s).ppu.overflow, bg := a.ppu.bg,
                 v := a.ppu.v,
                 s0hit := (pixelStep (renderingEnabled s.ppu.mask) s.ppu.scanline s.ppu.dot a).ppu.s0hit,
                 framebuffer := (pixelStep (renderingEnabled s.ppu.mask) s.ppu.scanline s.ppu.dot a).ppu.framebuffer },
        history := (flagEvents s).history } := by
  have hpixel := pixelStep_frame (renderingEnabled s.ppu.mask) s.ppu.scanline s.ppu.dot a
  generalize pixelStep (renderingEnabled s.ppu.mask) s.ppu.scanline s.ppu.dot a = p at hpixel ⊢
  rw [hpixel, h.before_pixel]
  rfl

/-- Outside the PPU a tick writes secondary OAM, the history and the reply; in the PPU it leaves the registers of the
window but the flags and `v`. -/
theorem TickSteps.frame :
    t = { s with
          ppu := { t.ppu with
                   ctrl := s.ppu.ctrl, mask := s.ppu.mask, oamAddr := s.ppu.oamAddr, t := s.ppu.t, x := s.ppu.x,
                   w := s.ppu.w, readBuffer := s.ppu.readBuffer, ioLatch := s.ppu.ioLatch },
          soam := t.soam, history := t.history, reply := .none } := by
  have hdot := h.dotFrame
  unfold DotFrame at hdot
  rw [h.advanced, advance_frame, hdot]
  rfl

theorem TickSteps.soam_eq : t.soam = c.soam := by rw [h.advanced]; rfl

theorem TickSteps.history_eq : t.history = (flagEvents s).history := by
  rw [h.advanced, spriteStep_frame h.sprites, h.before_sprites]
  rfl

theorem TickSteps.vblank_eq : t.ppu.vblank = (flagEvents s).ppu.vblank := by
  rw [h.after_pixel, h.before_pixel]

theorem TickSteps.v_eq : t.ppu.v = a.ppu.v := by rw [h.after_pixel]

/-- The dots at which a tick writes each field of the sprite pipeline (R143 to R146). -/
theorem TickSteps.sprite_writes :
    (t.soam = s.soam ∨
      (s.ppu.scanline < 240 ∧ (s.ppu.dot = 64 ∨ s.ppu.dot = 256) ∧ renderingEnabled s.ppu.mask = true)) ∧
    ((t.ppu.soamCount = s.ppu.soamCount ∧ t.ppu.spr0Next = s.ppu.spr0Next) ∨
      (s.ppu.scanline < 240 ∧ s.ppu.dot = 256 ∧ renderingEnabled s.ppu.mask = true)) ∧
    (t.ppu.units = s.ppu.units ∨
      (s.ppu.scanline < 240 ∧ s.ppu.dot = 257 ∧ renderingEnabled s.ppu.mask = true)) ∧
    ((t.ppu.unitCount = s.ppu.unitCount ∧ t.ppu.spr0Line = s.ppu.spr0Line) ∨
      ((s.ppu.scanline < 240 ∨ s.ppu.scanline = 261) ∧ s.ppu.dot = 257)) := by
  have hwrites := spriteStep_writes h.sprites
  rw [h.before_sprites] at hwrites
  rw [h.soam_eq, h.after_pixel]
  exact hwrites

/-- The lines at which a tick writes the background pipeline and `v` (R121). -/
theorem TickSteps.background_writes :
    (t.ppu.bg = s.ppu.bg ∧ t.ppu.v = s.ppu.v) ∨
      ((s.ppu.scanline < 240 ∨ s.ppu.scanline = 261) ∧ renderingEnabled s.ppu.mask = true) := by
  have hwrites := backgroundStep_writes h.background
  rwa [flagEvents_bg, flagEvents_v, ← h.bg_eq, ← h.v_eq] at hwrites

/-- The dots at which a tick fills each latch (R132, R135 to R137). -/
theorem TickSteps.latches :
    (t.ppu.bg.ntLatch = s.ppu.bg.ntLatch ∨ (groupDot s.ppu.dot = true ∧ s.ppu.dot % 8 = 1) ∨ s.ppu.dot = 337 ∨
      s.ppu.dot = 339) ∧
    (t.ppu.bg.atLatch = s.ppu.bg.atLatch ∨ (groupDot s.ppu.dot = true ∧ s.ppu.dot % 8 = 3)) ∧
    (t.ppu.bg.ptLoLatch = s.ppu.bg.ptLoLatch ∨ (groupDot s.ppu.dot = true ∧ s.ppu.dot % 8 = 5)) ∧
    (t.ppu.bg.ptHiLatch = s.ppu.bg.ptHiLatch ∨ (groupDot s.ppu.dot = true ∧ s.ppu.dot % 8 = 7)) := by
  have hbg := h.background
  unfold backgroundStep at hbg
  split at hbg
  · have hlatches := bgStep_latches hbg
    rwa [flagEvents_bg, ← h.bg_eq] at hlatches
  · have hsame : t.ppu.bg = s.ppu.bg := by rw [h.bg_eq, ← Option.some.inj hbg, flagEvents_bg]
    rw [hsame]
    exact ⟨.inl rfl, .inl rfl, .inl rfl, .inl rfl⟩

end steps

/-- Only the event at (241, 1) records anything (R123, R158). -/
theorem flagEvents_history (s : State) :
    (flagEvents s).history =
      if (s.ppu.scanline = 241 ∧ s.ppu.dot = 1) ∧ s.ppu.ctrl.getLsbD 7 = true then s.history ++ [.nmiSignal]
      else s.history := by
  by_cases hvblank : s.ppu.scanline = 241 ∧ s.ppu.dot = 1
  · rw [flagEvents_vblank hvblank.1 hvblank.2, vblankStart_eq]
    simp only [hvblank, and_self, true_and]
  rw [if_neg (mt And.left hvblank)]
  by_cases hclear : s.ppu.scanline = 261 ∧ s.ppu.dot = 1
  · rw [flagEvents_preRender hclear.1 hclear.2]; rfl
  · rw [flagEvents_other hvblank hclear]

/-- Settles O20: a tick is its steps, and each field is written by one of them, at the dots of that step. -/
theorem tickFrame : Obligations.TickFrame := by
  unfold Obligations.TickFrame
  intro s t htick
  obtain ⟨a, c, steps⟩ := exec_ppuTick_steps.1 htick
  obtain ⟨hsoam, hcount, hunits, hunitCount⟩ := steps.sprite_writes
  obtain ⟨hnt, hat, hlo, hhi⟩ := steps.latches
  have hhistory : t.history = s.history ∨ (s.ppu.scanline = 241 ∧ s.ppu.dot = 1) := by
    rw [steps.history_eq, flagEvents_history]
    by_cases hvblank : s.ppu.scanline = 241 ∧ s.ppu.dot = 1
    · exact .inr hvblank
    · exact .inl (if_neg (mt And.left hvblank))
  simp only [← renderingEnabled_eq_true, ← groupDot_iff]
  exact ⟨steps.frame, hsoam, hhistory, hcount, hunits, hunitCount, steps.background_writes, hnt, hat, hlo, hhi⟩

/-! ## The scroll schedule (R132) -/

theorem groupWork_v {d : Nat} {s t : State} (h : groupWork d s = some t) :
    t.ppu.v = if groupDot d = true ∧ (d - 1) % 8 = 7 then incX s.ppu.v else s.ppu.v := by
  unfold groupWork at h
  split at h
  next hd =>
    simp only [hd, true_and]
    generalize (d - 1) % 8 = place at h ⊢
    unfold groupStep at h
    split at h
    · obtain ⟨b, -, rfl⟩ := Option.map_eq_some_iff.1 h; rfl
    · obtain ⟨b, -, rfl⟩ := Option.map_eq_some_iff.1 h; rfl
    · obtain ⟨b, -, rfl⟩ := Option.map_eq_some_iff.1 h; rfl
    · obtain ⟨b, -, rfl⟩ := Option.map_eq_some_iff.1 h; rfl
    · cases h; rfl
    · next hlast => cases h; rw [if_neg hlast]
  next hd => cases h; rw [if_neg (mt And.left hd)]

theorem unusedFetch_v {d : Nat} {s t : State} (h : unusedFetch d s = some t) : t.ppu.v = s.ppu.v := by
  unfold unusedFetch at h
  split at h
  · obtain ⟨b, -, rfl⟩ := Option.map_eq_some_iff.1 h; rfl
  · cases h; rfl

theorem scrollWork_v (d : Nat) (s : State) :
    (scrollWork d s).ppu.v =
      if d = 256 then incY s.ppu.v else if d = 257 then copyX s.ppu.t s.ppu.v else s.ppu.v := by
  unfold scrollWork
  by_cases h256 : d = 256
  · subst h256; rfl
  · simp only [h256, if_false]
    split <;> rfl

theorem verticalCopy_v (line d : Nat) (s : State) :
    (verticalCopy line d s).ppu.v = if line = 261 ∧ 280 ≤ d ∧ d ≤ 304 then copyY s.ppu.t s.ppu.v else s.ppu.v := by
  unfold verticalCopy
  split <;> rfl

theorem BgFrame.t_eq {s t : State} (h : BgFrame s t) : t.ppu.t = s.ppu.t := by
  unfold BgFrame at h
  rw [h]
  rfl

/-- At most one of the increments and copies falls on a dot, but for `IncY` after `IncX` at dot 256. -/
theorem bgStep_v {line d : Nat} {s t : State} (h : bgStep line d s = some t) :
    t.ppu.v =
      if d = 256 then incY (incX s.ppu.v)
      else if d = 257 then copyX s.ppu.t s.ppu.v
      else if groupDot d = true ∧ d % 8 = 0 then incX s.ppu.v
      else if line = 261 ∧ 280 ≤ d ∧ d ≤ 304 then copyY s.ppu.t s.ppu.v
      else s.ppu.v := by
  obtain ⟨a, b, ha, hb, rfl⟩ := bgStep_eq_some.1 h
  have hshift := (shiftAndReload_frame d s).t_eq
  have hgroup := (groupWork_frame ha).t_eq.trans hshift
  have hunused := (unusedFetch_frame hb).t_eq.trans ((scrollWork_frame d a).t_eq.trans hgroup)
  have hplace : groupDot d = true ∧ (d - 1) % 8 = 7 ↔ groupDot d = true ∧ d % 8 = 0 := by
    rw [groupDot_iff]; omega
  rw [verticalCopy_v, hunused, unusedFetch_v hb, scrollWork_v, hgroup, groupWork_v ha, shiftAndReload_v]
  simp only [hplace]
  by_cases h256 : d = 256
  · simp [h256, show groupDot 256 = true from rfl]
  by_cases h257 : d = 257
  · simp [h257]
  simp only [h256, h257, if_false]
  by_cases hgroup : groupDot d = true ∧ d % 8 = 0
  · have hcopy : ¬(line = 261 ∧ 280 ≤ d ∧ d ≤ 304) := by rw [groupDot_iff] at hgroup; omega
    simp only [hgroup, hcopy, and_self, if_true, if_false]
  · simp only [hgroup, if_false]

/-- Settles O24: `v` after the tick is `v` after the background step. -/
theorem scrollScheduleOfATick : Obligations.ScrollScheduleOfATick := by
  unfold Obligations.ScrollScheduleOfATick
  intro s t htick hen
  obtain ⟨a, c, steps⟩ := exec_ppuTick_steps.1 htick
  simp only
  split
  next hline =>
    have ht : (flagEvents s).ppu.t = s.ppu.t := by rw [flagEvents_frame]
    rw [steps.v_eq, bgStep_v (steps.bgStep_eq hen hline), flagEvents_v, ht]
    simp only [groupDot_iff, and_comm]
  next hline =>
    exact (steps.background_writes.resolve_right (mt And.left hline)).2

end Sys2Proof.Machine
end

section
/-! PROOFS. When an operation completes, and what it is refused with where it does not (60_exceptions.md, R155 to R157);
and the step. -/

namespace Sys2Proof.Machine

/-- Settles O6: the two cases of a step. -/
theorem stepRunsDecodedInstruction : Obligations.StepRunsDecodedInstruction := by
  unfold Obligations.StepRunsDecodedInstruction
  refine ⟨fun s tx rest i hinbox hdecode => ?pending, fun s hinbox => ?idle⟩
  case pending => rw [step_of_inbox hinbox, hdecode]; rfl
  case idle => exact step_eq_next.2 (.inl ⟨hinbox, rfl⟩)

/-! ## The addresses of a tick's fetches are below $3F00 -/

theorem ntFetchAddr_lt (v : BitVec 15) : (ntFetchAddr v).toNat < 0x3F00 := by
  rw [ntFetchAddr_eq_ofNat, BitVec.toNat_ofNat]; omega

theorem atFetchAddr_lt (v : BitVec 15) : (atFetchAddr v).toNat < 0x3F00 := by
  rw [atFetchAddr_eq_ofNat, BitVec.toNat_ofNat]
  exact lt_of_le_of_lt (Nat.mod_le _ _) (by omega)

theorem ptAddr_toNat (s : State) : (ptAddr s).toNat = patternNumber s.ppu := by
  have := patternNumber_high s.ppu
  rw [ptAddr_eq_ofNat, BitVec.toNat_ofNat]; omega

theorem ptAddr_high_toNat (s : State) : (ptAddr s + 8#14).toNat = patternNumber s.ppu + 8 := by
  have := patternNumber_high s.ppu
  rw [BitVec.toNat_add, ptAddr_toNat, BitVec.toNat_ofNat]; omega

/-! ## A tick with no mapper in the slot (log 14) -/

section noMapper
variable {s : State} (hm : s.mapper = none)
include hm

theorem fetchNT_none : fetchNT s = none := by
  rw [fetchNT, busRead_none hm (ntFetchAddr_lt _), Option.map_none]

theorem fetchAT_none : fetchAT s = none := by
  rw [fetchAT, busRead_none hm (atFetchAddr_lt _), Option.map_none]

theorem fetchPTLo_none : fetchPTLo s = none := by
  have hlow : (ptAddr s).toNat < 0x3F00 := by have := patternNumber_high s.ppu; rw [ptAddr_toNat]; omega
  rw [fetchPTLo, busRead_none hm hlow, Option.map_none]

theorem fetchPTHi_none : fetchPTHi s = none := by
  have hlow : (ptAddr s + 8#14).toNat < 0x3F00 := by have := patternNumber_high s.ppu; rw [ptAddr_high_toNat]; omega
  rw [fetchPTHi, busRead_none hm hlow, Option.map_none]

/-- The even places of a fetch group fetch. -/
theorem groupWork_eq_none_iff (d : Nat) : groupWork d s = none ↔ groupDot d = true ∧ (d - 1) % 8 % 2 = 0 := by
  unfold groupWork
  split
  next hd =>
    have hlt := Nat.mod_lt (d - 1) (by decide : 8 > 0)
    generalize (d - 1) % 8 = place at hlt ⊢
    interval_cases place <;>
      simp [groupStep, hd, fetchNT_none hm, fetchAT_none hm, fetchPTLo_none hm, fetchPTHi_none hm]
  next hd => simp [hd]

theorem unusedFetch_eq_none_iff (d : Nat) : unusedFetch d s = none ↔ d = 337 ∨ d = 339 := by
  unfold unusedFetch
  split
  next hd => simp [hd, fetchNT_none hm]
  next hd => simp [hd]

end noMapper

theorem fetchDot_iff {d : Nat} :
    fetchDot d = true ↔ (groupDot d = true ∧ (d - 1) % 8 % 2 = 0) ∨ d = 337 ∨ d = 339 := by
  simp only [fetchDot, Bool.or_eq_true, Bool.and_eq_true, beq_iff_eq, bne_iff_ne, or_assoc]
  exact or_congr_left (and_iff_left_of_imp (by omega))

theorem bgStep_eq_none_iff {s : State} (hm : s.mapper = none) (line d : Nat) :
    bgStep line d s = none ↔ fetchDot d = true := by
  have hshift : (shiftAndReload d s).mapper = none := by rw [(shiftAndReload_frame d s).mapper_eq, hm]
  have hgroup := groupWork_eq_none_iff hshift d
  rw [bgStep, Option.map_eq_none_iff, fetchDot_iff, ← hgroup]
  cases ha : groupWork d (shiftAndReload d s) with
  | none => simp
  | some a =>
    have hscroll : (scrollWork d a).mapper = none := by
      rw [(scrollWork_frame d a).mapper_eq, (groupWork_frame ha).mapper_eq, hshift]
    simp [unusedFetch_eq_none_iff hscroll]

theorem backgroundStep_eq_none_iff {s : State} (hm : s.mapper = none) (line d : Nat) :
    backgroundStep true line d s = none ↔ (line < 240 ∨ line = 261) ∧ fetchDot d = true := by
  unfold backgroundStep
  split
  next hline => rw [bgStep_eq_none_iff hm, and_iff_right hline.1]
  next hline => simpa using fun h => absurd h (by simpa using hline)

theorem spriteFetchAddr_lt (ctrl tile : Byte) {row : Nat} (hrow : row < 16) :
    (spriteFetchAddr ctrl tile row).toNat < 0x3F00 := by
  have hbase (hi : Bool) : patternBase hi ≤ 0x1000 := by cases hi <;> decide
  have htile : (tile &&& 0xFE#8).toNat ≤ 255 := by omega
  unfold spriteFetchAddr
  split
  · have := hbase (tile.getLsbD 0)
    rw [BitVec.toNat_ofNat]
    refine lt_of_le_of_lt (Nat.mod_le _ _) ?_
    split <;> omega
  · have := hbase (ctrlSprTable ctrl)
    rw [BitVec.toNat_ofNat]
    exact lt_of_le_of_lt (Nat.mod_le _ _) (by omega)

theorem spriteRow_lt (ctrl y attr : Byte) (line : Nat) :
    spriteRow (spriteHeight ctrl) line y attr < spriteHeight ctrl := by
  have hpos : 0 < spriteHeight ctrl := by unfold spriteHeight; split <;> decide
  have hnonneg := Int.emod_nonneg ((line : Int) - (y.toNat : Int)) (by omega : (spriteHeight ctrl : Int) ≠ 0)
  have hlt := Int.emod_lt_of_pos ((line : Int) - (y.toNat : Int)) (by omega : (0 : Int) < spriteHeight ctrl)
  simp only [spriteRow]
  split <;> omega

theorem spriteHeight_le (ctrl : Byte) : spriteHeight ctrl ≤ 16 := by unfold spriteHeight; split <;> decide

theorem unitFetchAddr_lt (s : State) (i : Nat) : (unitFetchAddr s i).toNat < 0x3F00 :=
  spriteFetchAddr_lt _ _ ((spriteRow_lt _ _ _ _).trans_le (spriteHeight_le _))

theorem loadSprites_eq_none_iff {s : State} (hm : s.mapper = none) : loadSprites s = none ↔ s.ppu.soamCount ≠ 0 := by
  rw [loadSprites, Option.map_eq_none_iff]
  cases hcount : s.ppu.soamCount with
  | zero => simp [loadUnits]
  | succ n => simp [List.range_succ_eq_map, loadUnits, loadUnit, busRead_none hm (unitFetchAddr_lt s 0)]

theorem spriteStep_eq_none_iff {s : State} (hm : s.mapper = none) (line d : Nat) :
    spriteStep true line d s = none ↔ line < 240 ∧ d = 257 ∧ s.ppu.soamCount ≠ 0 := by
  rw [← loadSprites_eq_none_iff hm]
  unfold spriteStep
  by_cases hline : line < 240
  case neg =>
    simp only [hline, if_false, false_and, iff_false]
    split <;> nofun
  by_cases hd : d = 257
  · simp [hline, hd]
  · simp only [hline, hd, if_true, if_false, false_and, and_false, iff_false]
    split
    · nofun
    · split <;> nofun

theorem tickFetches_iff {p : Ppu} :
    tickFetches p = true ↔
      renderingEnabled p.mask = true ∧
        (((p.scanline < 240 ∨ p.scanline = 261) ∧ fetchDot p.dot = true) ∨
          (p.scanline < 240 ∧ p.dot = 257 ∧ p.soamCount ≠ 0)) := by
  simp only [tickFetches, Bool.and_eq_true, Bool.or_eq_true, decide_eq_true_eq, beq_iff_eq, bne_iff_ne, and_assoc]

/-- With rendering enabled and no mapper a tick is refused exactly at its fetches. -/
theorem dotWork_eq_none_iff {s : State} (hm : s.mapper = none) (hen : renderingEnabled s.ppu.mask = true) :
    dotWork s = none ↔ tickFetches s.ppu = true := by
  have hflags : (flagEvents s).mapper = none := by rw [flagEvents_frame, hm]
  have hbg := backgroundStep_eq_none_iff hflags s.ppu.scanline s.ppu.dot
  rw [tickFetches_iff, dotWork, hen, and_iff_right rfl, ← hbg]
  cases ha : backgroundStep true s.ppu.scanline s.ppu.dot (flagEvents s) with
  | none => simp
  | some a =>
    have hframe := backgroundStep_frame ha
    have hpixel := pixelStep_frame true s.ppu.scanline s.ppu.dot a
    have hmapper : (pixelStep true s.ppu.scanline s.ppu.dot a).mapper = none := by
      rw [hpixel, State.setPpu_mapper, hframe.mapper_eq, hflags]
    have hcount : (pixelStep true s.ppu.scanline s.ppu.dot a).ppu.soamCount = s.ppu.soamCount := by
      unfold BgFrame at hframe
      rw [hpixel, State.setPpu_ppu, hframe, flagEvents_frame]
      rfl
    simp [spriteStep_eq_none_iff hmapper, hcount]

/-- A tick completes with a mapper in the slot, and without one where it fetches nothing (R155, log 14). -/
theorem tick_isSome (s : State) : (tick s).isSome = (s.mapper.isSome || !tickFetches s.ppu) := by
  rw [tick, Option.isSome_map]
  cases hm : s.mapper with
  | some m =>
    obtain ⟨t, ht⟩ := exec_ppuTick_of_mapper (s := s) (by rw [hm]; rfl)
    obtain ⟨a, ha, -⟩ := exec_ppuTick_eq_next.1 ht
    rw [ha]; rfl
  | none =>
    cases hen : renderingEnabled s.ppu.mask with
    | false =>
      obtain ⟨t, ht, -⟩ := exec_ppuTick_disabled hen
      obtain ⟨a, ha, -⟩ := exec_ppuTick_eq_next.1 ht
      rw [ha, tickFetches, hen]; rfl
    | true =>
      have hnone := dotWork_eq_none_iff hm hen
      cases hwork : dotWork s with
      | none => rw [hnone.1 hwork]; rfl
      | some a =>
        have hfetch : ¬ tickFetches s.ppu = true := mt hnone.2 (by rw [hwork]; nofun)
        rw [Bool.eq_false_iff.2 hfetch]; rfl

/-! ## Completion, and the refusal otherwise -/

/-- What a row that needs the mapper is refused with: `NoCartridge` while the slot is empty, and where the slot holds another
variant the model's own refusal (log 10). -/
def slotRefusal (s : State) : Refusal := if s.mapper.isSome then .otherVariant else .noCartridge

/-- What an operation that is not ready is refused with (R155). -/
def refusalOf (i : Instr) (s : State) : Refusal :=
  match i with
  | .oamdmaW _ => .dmaFromWindow
  | _ => slotRefusal s

/-- The outcome is a next state exactly when `b`, and the refusal `q` otherwise. -/
structure CompletesIf (b : Bool) (q : Refusal) (r : Result) : Prop where
  next : b = true → ∃ t, r = .next t
  refused : b = false → r = .refused q

section completesIf
variable {s : State} {q : Refusal}

theorem CompletesIf.always (t : State) : CompletesIf true q (.next t) := ⟨fun _ => ⟨t, rfl⟩, nofun⟩

theorem CompletesIf.orNoCartridge {α : Type} {x : Option α} {f : α → Result} {b : Bool} (hx : x.isSome = b)
    (hb : b = false → s.mapper = none) (hf : ∀ y, ∃ t, f y = .next t) :
    CompletesIf b (slotRefusal s) (orNoCartridge x f) := by
  cases x with
  | some y =>
    obtain ⟨t, ht⟩ := hf y
    rw [← hx]
    exact ⟨fun _ => ⟨t, ht⟩, nofun⟩
  | none =>
    have hm : s.mapper = none := hb hx.symm
    rw [← hx, slotRefusal, hm]
    exact ⟨nofun, fun _ => rfl⟩

theorem CompletesIf.withMapper {f : Mapper → Result} (hf : ∀ m, ∃ t, f m = .next t) :
    CompletesIf s.mapper.isSome (slotRefusal s) (withMapper s f) := by
  unfold Machine.withMapper slotRefusal
  cases s.mapper with
  | some m => exact ⟨fun _ => hf m, nofun⟩
  | none => exact ⟨nofun, fun _ => rfl⟩

/-- A row of one variant completes exactly when the slot holds that variant (R58). -/
theorem CompletesIf.withRegs {f : Mapper → Result} {v : Variant}
    (hf : ∀ m, s.mapper = some m → if m.variant = v then ∃ t, f m = .next t else f m = .refused .otherVariant) :
    CompletesIf (s.slot == some v) (slotRefusal s) (Machine.withMapper s f) := by
  unfold Machine.withMapper slotRefusal State.slot
  cases hm : s.mapper with
  | none => exact ⟨nofun, fun _ => rfl⟩
  | some m =>
    have hfm := hf m hm
    by_cases hv : m.variant = v
    · rw [if_pos hv] at hfm
      exact ⟨fun _ => hfm, fun h => by simp [hv] at h⟩
    · rw [if_neg hv] at hfm
      exact ⟨fun h => by simp [hv] at h, fun _ => hfm⟩

theorem CompletesIf.withNrom {f : Mapper → Result} (hf : ∀ m, ∃ t, f m = .next t) :
    CompletesIf (s.slot == some .nrom) (slotRefusal s) (withNrom s f) := by
  refine .withRegs fun m _ => ?_
  unfold Mapper.variant
  cases m.regs <;> simp [hf]

theorem CompletesIf.withMmc1 {f : Mapper → Mmc1 → Result} (hf : ∀ m r, ∃ t, f m r = .next t) :
    CompletesIf (s.slot == some .mmc1) (slotRefusal s) (withMmc1 s f) := by
  refine .withRegs fun m _ => ?_
  unfold Mapper.variant
  cases m.regs <;> simp [hf]

theorem CompletesIf.withUxrom {f : Mapper → Byte → Result} (hf : ∀ m b, ∃ t, f m b = .next t) :
    CompletesIf (s.slot == some .uxrom) (slotRefusal s) (withUxrom s f) := by
  refine .withRegs fun m _ => ?_
  unfold Mapper.variant
  cases m.regs <;> simp [hf]

theorem CompletesIf.withCnrom {f : Mapper → Byte → Result} (hf : ∀ m b, ∃ t, f m b = .next t) :
    CompletesIf (s.slot == some .cnrom) (slotRefusal s) (withCnrom s f) := by
  refine .withRegs fun m _ => ?_
  unfold Mapper.variant
  cases m.regs <;> simp [hf]

theorem mapper_eq_none_of_not_reaches {a : BusAddr} (h : reaches s a = false) : s.mapper = none := by
  rw [reaches, Bool.or_eq_false_iff] at h
  exact Option.isNone_iff_eq_none.1 (Option.isSome_eq_false_iff.1 h.1)

theorem CompletesIf.busAnswer (a : BusAddr) : CompletesIf (reaches s a) (slotRefusal s) (busAnswer s a) :=
  .orNoCartridge (busRead_isSome s a) mapper_eq_none_of_not_reaches fun _ => ⟨_, rfl⟩

theorem CompletesIf.busStore (a : BusAddr) (d : Byte) : CompletesIf (reaches s a) (slotRefusal s) (busStore s a d) :=
  .orNoCartridge (busWrite_isSome s a d) mapper_eq_none_of_not_reaches fun _ => ⟨_, rfl⟩

end completesIf

/-! ## PPUDATA with no mapper in the slot (log 13) -/

section dataPort
variable {s : State}

theorem reaches_of_lt {a : BusAddr} (h : a.toNat < 0x3F00) : reaches s a = s.mapper.isSome := by
  rw [reaches, decide_eq_false (Nat.not_le.2 h), Bool.or_false]

theorem ppudataReadEffect_isSome (k : BitVec 10) : (ppudataReadEffect s).isSome = ready (.ppudataR k) s := by
  show _ = (s.mapper.isSome || (!s.cfg.ppudataReadBuffered && reaches s (busAddr s.ppu.v)))
  cases hbuf : s.cfg.ppudataReadBuffered with
  | false =>
    rw [ppudataReadEffect_unbuffered hbuf, Option.isSome_map, busRead_isSome, reaches]
    cases s.mapper.isSome <;> rfl
  | true =>
    by_cases ha : (busAddr s.ppu.v).toNat < 0x3F00
    · rw [ppudataReadEffect_buffered_below hbuf ha, Option.isSome_map, busRead_isSome, reaches_of_lt ha]
      exact (Bool.or_false _).symm
    · have hbelow : (busAddr s.ppu.v - 0x1000#14).toNat < 0x3F00 := by bv_omega
      rw [ppudataReadEffect_buffered_palette hbuf (Nat.not_lt.1 ha), Option.isSome_map, busRead_isSome,
        reaches_of_lt hbelow]
      exact (Bool.or_false _).symm

theorem ppudataPeek_isSome (k : BitVec 10) : (ppudataPeek s).isSome = ready (.ppudataP k) s := by
  show _ = (s.cfg.ppudataReadBuffered || reaches s (busAddr s.ppu.v))
  cases hbuf : s.cfg.ppudataReadBuffered with
  | false => rw [ppudataPeek_of_bus (.inl hbuf), busRead_isSome, Bool.false_or]
  | true =>
    by_cases ha : (busAddr s.ppu.v).toNat < 0x3F00
    · rw [ppudataPeek_buffered_below hbuf ha]; rfl
    · have hpal : 0x3F00 ≤ (busAddr s.ppu.v).toNat := Nat.not_lt.1 ha
      rw [ppudataPeek_of_bus (.inr hpal), busRead_palette s hpal]; rfl

theorem ppudataWriteEffect_isSome (k : BitVec 10) (d : Byte) :
    (ppudataWriteEffect (s.latch d) d).isSome = ready (.ppudataW k d) s := by
  rw [ppudataWriteEffect, Option.isSome_map, busWrite_isSome]
  rfl

end dataPort

/-- Every operation completes exactly when it is ready, and is refused with `refusalOf` otherwise. -/
theorem exec_completesIf (i : Instr) (s : State) : CompletesIf (ready i s) (refusalOf i s) (exec i s) := by
  cases i
  case ppudataR k =>
    refine .orNoCartridge (ppudataReadEffect_isSome k) (fun hready => ?_) fun _ => ⟨_, rfl⟩
    exact Option.isNone_iff_eq_none.1 (Option.isSome_eq_false_iff.1 ((Bool.or_eq_false_iff.1 hready).1))
  case ppudataP k =>
    exact .orNoCartridge (ppudataPeek_isSome k)
      (fun hready => mapper_eq_none_of_not_reaches (Bool.or_eq_false_iff.1 hready).2) fun _ => ⟨_, rfl⟩
  case ppudataW k d =>
    exact .orNoCartridge (ppudataWriteEffect_isSome k d) mapper_eq_none_of_not_reaches fun _ => ⟨_, rfl⟩
  case oamdmaW d =>
    show CompletesIf (!dmaFromWindow d) .dmaFromWindow (exec (.oamdmaW d) s)
    rw [exec_oamdmaW]
    cases dmaFromWindow d with
    | true => exact ⟨nofun, fun _ => rfl⟩
    | false => exact .always _
  case mapFactory id =>
    show CompletesIf true _ (execMapFactory id s)
    unfold execMapFactory
    split
    · exact .always _
    · exact .always _
  case ppuTick =>
    refine .orNoCartridge (tick_isSome s) (fun hready => ?_) fun _ => ⟨_, rfl⟩
    exact Option.isNone_iff_eq_none.1 (Option.isSome_eq_false_iff.1 ((Bool.or_eq_false_iff.1 hready).1))
  case mapTick | mapMirroring => exact .withMapper fun _ => ⟨_, rfl⟩
  case nromChrR | nromChrW | nromPrgR | nromPrgW | nromPeek | nromUnmappedR | nromUnmappedW =>
    exact .withNrom fun _ => ⟨_, rfl⟩
  case mmc1PrgramR | mmc1PrgramW | mmc1WCtrl | mmc1WChr0 | mmc1WChr1 | mmc1WPrg | mmc1PrgLoR | mmc1PrgHiR
      | mmc1ChrLoR | mmc1ChrHiR | mmc1ChrW | mmc1Peek | mmc1UnmappedR | mmc1UnmappedW =>
    exact .withMmc1 fun _ _ => ⟨_, rfl⟩
  case uxromWBank | uxromPrgLoR | uxromPrgHiR | uxromChrR | uxromChrW | uxromPeek | uxromUnmappedR | uxromUnmappedW =>
    exact .withUxrom fun _ _ => ⟨_, rfl⟩
  case cnromWBank | cnromChrR | cnromChrW | cnromPrgR | cnromPeek | cnromUnmappedR | cnromUnmappedW =>
    exact .withCnrom fun _ _ => ⟨_, rfl⟩
  case pbusPtR | pbusPtP | pbusNtR | pbusNtP => exact .busAnswer _
  case pbusPtW | pbusNtW => exact .busStore _ _
  case pbusPalR o | pbusPalP o =>
    show CompletesIf true _ (busAnswer s (palBusAddr o))
    rw [busAnswer_palette]
    exact .always _
  case pbusPalW o d =>
    show CompletesIf true _ (busStore s (palBusAddr o) d)
    rw [busStore_palette]
    exact .always _
  -- The other window rows, the power cycle, the reset and the queries complete with a state written out.
  all_goals exact .always _

/-- Settles O8: `ready` is the condition of `exec_completesIf`. -/
theorem execCompletesIffReady : Obligations.ExecCompletesIffReady := by
  unfold Obligations.ExecCompletesIffReady
  intro i s
  refine ⟨fun ⟨t, ht⟩ => ?_, (exec_completesIf i s).next⟩
  by_contra hready
  rw [(exec_completesIf i s).refused (Bool.eq_false_iff.2 hready)] at ht
  cases ht

/-! ## The refusals of a step (R155, R157) -/

/-- A cartridge row is ready exactly when the slot holds its variant. -/
theorem ready_of_variant {i : Instr} {v : Variant} (hv : i.variant? = some v) (s : State) :
    ready i s = (s.slot == some v) := by
  cases i <;> cases hv <;> rfl

/-- With a mapper in the slot every operation its words name is ready but the DMA from the window. -/
theorem ready_of_mapper {i : Instr} {s : State} (hm : s.mapper.isSome = true) (hrow : i.rowIn s.slot)
    (hdma : ∀ d, i ≠ .oamdmaW d) : ready i s = true := by
  have hreach (a : BusAddr) : reaches s a = true := reaches_eq_true.2 (.inl hm)
  cases hv : i.variant? with
  | some v =>
    obtain hnone | hslot := hrow
    · rw [hv] at hnone; cases hnone
    · rw [ready_of_variant hv, ← hslot, hv, beq_self_eq_true]
  | none =>
    cases i
    case oamdmaW d => exact absurd rfl (hdma d)
    case ppudataR | ppuTick => exact Bool.or_eq_true_iff.2 (.inl hm)
    case ppudataP => exact Bool.or_eq_true_iff.2 (.inr (hreach _))
    case ppudataW | pbusPtR | pbusPtW | pbusPtP | pbusNtR | pbusNtW | pbusNtP => exact hreach _
    case mapTick | mapMirroring => exact hm
    -- Of the other rows those of a cartridge have a variant, and the rest are always ready.
    all_goals cases hv <;> rfl

theorem eq_of_whenZero_eq_noCartridge {n : Nat} {u : BitVec n} {r : Except Rejection Instr}
    (h : whenZero u r = .error .noCartridge) : r = .error .noCartridge := by
  unfold whenZero at h
  split at h
  · exact h
  · cases h

/-- Only a word read against an empty slot lacks a cartridge. -/
theorem slot_eq_none_of_noCartridge {slot : Option Variant} {w : Word} (h : decode slot w = .error .noCartridge) :
    slot = none := by
  by_contra hslot
  obtain ⟨v, rfl⟩ := Option.ne_none_iff_exists'.1 hslot
  rw [decode] at h
  by_cases hlegal : LegalPair (tField w) (oField w)
  case neg => rw [decodeFields_of_not_legal hlegal] at h; cases h
  generalize tField w = t, oField w = o at h hlegal
  cases hlegal with
  | winW | cartW => cases h
  | winR | winP | cartR | cartP | busW | mapFactory => cases eq_of_whenZero_eq_noCartridge h
  | _ => cases eq_of_whenZero_eq_noCartridge (eq_of_whenZero_eq_noCartridge h)

theorem ready_oamdmaW (d : Byte) (s : State) : ready (.oamdmaW d) s = !dmaFromWindow d := rfl

theorem ready_issue (i : Instr) (s : State) (tx : Transaction) (rest : List Transaction) :
    ready i (s.issue tx rest) = ready i s := by
  cases i <;> rfl

/-- Why a decoded operation that is not ready is refused: a DMA reads the window, or the slot is empty. -/
theorem refused_of_not_ready {i : Instr} {s : State} (hrow : i.rowIn s.slot) (h : ready i s = false) :
    (∃ d, i = .oamdmaW d ∧ dmaFromWindow d = true) ∨ (s.mapper = none ∧ ∀ d, i ≠ .oamdmaW d) := by
  by_cases hdma : ∃ d, i = .oamdmaW d
  · obtain ⟨d, rfl⟩ := hdma
    rw [ready_oamdmaW, Bool.not_eq_false'] at h
    exact .inl ⟨d, rfl, h⟩
  · have hdma' : ∀ d, i ≠ .oamdmaW d := not_exists.1 hdma
    refine .inr ⟨?_, hdma'⟩
    by_contra hm
    rw [ready_of_mapper (Option.isSome_iff_ne_none.2 hm) hrow hdma'] at h
    cases h

theorem refusalOf_of_no_mapper {i : Instr} {s : State} (hm : s.mapper = none) (hdma : ∀ d, i ≠ .oamdmaW d) :
    refusalOf i s = .noCartridge := by
  unfold refusalOf slotRefusal
  rw [hm]
  split
  · exact absurd rfl (hdma _)
  · rfl

/-- Settles O7: a word that is not decoded is refused as its decoding says; an operation that is not ready is refused with
`refusalOf`, and through a step never for its variant, since the decoder reads the word for the slot's. -/
theorem stepRefusalsExactly : Obligations.StepRefusalsExactly := by
  unfold Obligations.StepRefusalsExactly
  intro s tx rest hinbox
  rw [step_of_inbox hinbox]
  cases hdecode : decode s.slot tx.word with
  | error r =>
    cases r with
    | badWord => simp [Refusal.ofRejection]
    | noCartridge =>
      have hm : s.mapper = none := Option.map_eq_none_iff.1 (slot_eq_none_of_noCartridge hdecode)
      simp [Refusal.ofRejection, hm]
  | ok i =>
    have hexec := exec_completesIf i (s.issue tx rest)
    rw [ready_issue] at hexec
    obtain ⟨-, -, hrow⟩ := spells_of_decodeFields hdecode
    cases hready : ready i s with
    | true =>
      obtain ⟨t, ht⟩ := hexec.next hready
      have hdma : ∀ d : Byte, i = .oamdmaW d → ¬ (0x20 ≤ d.toNat ∧ d.toNat ≤ 0x3F) := by
        rintro d rfl
        rw [ready_oamdmaW, Bool.not_eq_true', Bool.eq_false_iff] at hready
        rwa [← dmaFromWindow_iff]
      simpa [ht, hready] using hdma
    | false =>
      obtain ⟨d, rfl, hd⟩ | ⟨hm, hdma⟩ := refused_of_not_ready hrow hready
      · simp [hexec.refused hready, refusalOf, dmaFromWindow_iff.1 hd]
      · have hnone : refusalOf i (s.issue tx rest) = .noCartridge := refusalOf_of_no_mapper hm hdma
        simp [hexec.refused hready, hnone, hm, hdma, hready]

end Sys2Proof.Machine
end

section
/-! PROOFS. Sessions of ticks over a frame (42_ppu_timing.md section 4): the position by the number of ticks, the length of
a frame, and the scroll the pre-render line loads (43_ppu_render.md section 3). -/

namespace Sys2Proof.Machine

/-! ## The position by the number of ticks (R126) -/

theorem inFrame_of_origin {p : Ppu} (hline : p.scanline = 0) (hdot : p.dot = 0) : p.InFrame ∧ dotIndex p = 0 := by
  rw [Ppu.InFrame, dotIndex, hline, hdot]
  decide

theorem Ppu.InFrame.position {p : Ppu} (h : p.InFrame) : p.scanline = dotIndex p / 341 ∧ p.dot = dotIndex p % 341 := by
  obtain ⟨-, hdot⟩ := h
  unfold dotIndex
  omega

/-- The frame count and the parity of the frame are the same. -/
def SameFrame (s t : State) : Prop := t.ppu.frameCount = s.ppu.frameCount ∧ t.ppu.oddFrame = s.ppu.oddFrame

theorem SameFrame.trans {s t u : State} (h : SameFrame s t) (k : SameFrame t u) : SameFrame s u :=
  ⟨k.1.trans h.1, k.2.trans h.2⟩

/-- A tick before the last two dots of a frame stays in the frame. -/
theorem exec_ppuTick_sameFrame {s t : State} (hdot : dotIndex s.ppu < 89340) (h : exec .ppuTick s = .next t) :
    SameFrame s t := by
  obtain ⟨hnext, -⟩ := tickAdvancesPosition s t h
  unfold dotIndex at hdot
  rw [if_neg (by omega)] at hnext
  unfold SameFrame
  split_ifs at hnext
  · omega
  · simp only [Prod.mk.injEq] at hnext
    exact hnext.2.2
  · simp only [Prod.mk.injEq] at hnext
    exact hnext.2.2

theorem exec_sameFrame {i : Instr} {s t : State} (tick : i ≠ .ppuTick) (life : i ≠ .ppuPowerCycle ∧ i ≠ .ppuReset)
    (h : exec i s = .next t) : SameFrame s t := by
  have hwindow : WindowFrame s t := exec_windowOutcome s tick life.1 life.2 t h
  unfold WindowFrame at hwindow
  unfold SameFrame
  rw [hwindow]
  exact ⟨rfl, rfl⟩

/-- `n` ticks before the position number `last` of the frame of `s`. -/
structure SameFrameBefore (s : State) (last n : Nat) (u : State) : Prop where
  before : TicksBefore last n u
  sameFrame : SameFrame s u

theorem SameFrameBefore.tick {s u v : State} {last n : Nat} (hlast : last < 89341)
    (h : SameFrameBefore s last (n + 1) u) (hexec : exec .ppuTick u = .next v) : SameFrameBefore s last n v := by
  obtain ⟨before, sameFrame⟩ := h
  obtain ⟨-, hindex⟩ := id before
  exact ⟨before.tick hlast hexec, sameFrame.trans (exec_ppuTick_sameFrame (by omega) hexec)⟩

theorem SameFrameBefore.other {s u v : State} {last n : Nat} {i : Instr} (h : SameFrameBefore s last n u)
    (htick : i ≠ .ppuTick) (life : i ≠ .ppuPowerCycle ∧ i ≠ .ppuReset) (hexec : exec i u = .next v) :
    SameFrameBefore s last n v :=
  ⟨h.before.other htick life hexec, h.sameFrame.trans (exec_sameFrame htick life hexec)⟩

/-- Settles O14: before tick 89341 no frame can have ended, so each tick moves the position on by one dot and stays in the
frame. -/
theorem positionCountsTicks : Obligations.PositionCountsTicks := by
  unfold Obligations.PositionCountsTicks
  intro is s t hline hdot life hexec hticks
  obtain ⟨hframe, hstart⟩ := inFrame_of_origin hline hdot
  obtain ⟨⟨tframe, tindex⟩, tsame⟩ : SameFrameBefore s (is.count .ppuTick) 0 t :=
    execAll_keeps (fun _ _ _ hu => hu.tick hticks) (fun _ _ _ _ htick hlife hu => hu.other htick hlife) life hexec
      ⟨⟨hframe, by omega⟩, rfl, rfl⟩
  obtain ⟨tline, tdot⟩ := tframe.position
  rw [Nat.add_zero] at tindex
  rw [tindex] at tline tdot
  exact ⟨tline, tdot, tsame⟩

/-! ## Sessions of ticks alone -/

theorem ticks_succ_eq_next {n : Nat} {s t : State} :
    ticks (n + 1) s = .next t ↔ ∃ u, ticks n s = .next u ∧ exec .ppuTick u = .next t := by
  unfold ticks
  rw [List.replicate_succ', execAll_append_eq_next]
  constructor
  · rintro ⟨u, hu, hlast⟩
    obtain ⟨v, hv, ⟨⟩⟩ := execAll_cons_eq_next.1 hlast
    exact ⟨u, hu, hv⟩
  · rintro ⟨u, hu, ht⟩
    exact ⟨u, hu, execAll_cons_eq_next.2 ⟨t, ht, rfl⟩⟩

/-- What each of the first `n` ticks keeps completing with, the session of them reaches. -/
theorem ticks_reach {R : Nat → State → Prop} {n : Nat} {s : State} (start : R 0 s)
    (tick : ∀ k u, k < n → R k u → ∃ v, exec .ppuTick u = .next v ∧ R (k + 1) v) :
    ∃ t, ticks n s = .next t ∧ R n t := by
  induction n with
  | zero => exact ⟨s, rfl, start⟩
  | succ n ih =>
    obtain ⟨u, hu, hR⟩ := ih fun k u hk => tick k u (Nat.lt_succ_of_lt hk)
    obtain ⟨v, hv, hR'⟩ := tick n u (Nat.lt_succ_self n) hR
    exact ⟨v, ticks_succ_eq_next.2 ⟨u, hu, hv⟩, hR'⟩

/-- What a tick leaves unchanged that the ticks of a frame depend on. -/
structure SameSetting (s t : State) : Prop where
  cfg : t.cfg = s.cfg
  mapper : t.mapper = s.mapper
  palette : t.palette = s.palette
  mask : t.ppu.mask = s.ppu.mask
  t : t.ppu.t = s.ppu.t

theorem SameSetting.refl (s : State) : SameSetting s s := ⟨rfl, rfl, rfl, rfl, rfl⟩

theorem SameSetting.trans {s t u : State} (h : SameSetting s t) (k : SameSetting t u) : SameSetting s u :=
  ⟨k.cfg.trans h.cfg, k.mapper.trans h.mapper, k.palette.trans h.palette, k.mask.trans h.mask, k.t.trans h.t⟩

theorem exec_ppuTick_sameSetting {s t : State} (h : exec .ppuTick s = .next t) : SameSetting s t := by
  obtain ⟨a, c, steps⟩ := exec_ppuTick_steps.1 h
  rw [steps.frame]
  exact ⟨rfl, rfl, rfl, rfl, rfl⟩

/-! ## The length of a frame (R128) -/

/-- `k` ticks after the start of a frame, which has not ended. -/
structure FrameAfter (s : State) (k : Nat) (u : State) : Prop where
  setting : SameSetting s u
  inFrame : u.ppu.InFrame
  index : dotIndex u.ppu = k
  sameFrame : SameFrame s u

theorem FrameAfter.start {s : State} (hline : s.ppu.scanline = 0) (hdot : s.ppu.dot = 0) : FrameAfter s 0 s :=
  ⟨.refl s, (inFrame_of_origin hline hdot).1, (inFrame_of_origin hline hdot).2, rfl, rfl⟩

theorem FrameAfter.tick {s u v : State} {k : Nat} (h : FrameAfter s k u) (hk : k < 89340)
    (hv : exec .ppuTick u = .next v) : FrameAfter s (k + 1) v := by
  obtain ⟨setting, inFrame, index, sameFrame⟩ := h
  obtain ⟨vframe, vindex⟩ := exec_ppuTick_dotIndex inFrame hv
  exact ⟨setting.trans (exec_ppuTick_sameSetting hv), vframe, by omega,
    sameFrame.trans (exec_ppuTick_sameFrame (by omega) hv)⟩

/-- The first 89340 ticks lead to dot 339 of the pre-render line. -/
theorem ticks_frameAfter {s : State} (hline : s.ppu.scanline = 0) (hdot : s.ppu.dot = 0)
    (hm : s.mapper.isSome = true) {k : Nat} (hk : k ≤ 89340) : ∃ t, ticks k s = .next t ∧ FrameAfter s k t := by
  refine ticks_reach (FrameAfter.start hline hdot) fun j u hj hu => ?_
  obtain ⟨v, hv⟩ := exec_ppuTick_of_mapper (s := u) (hu.setting.mapper ▸ hm)
  exact ⟨v, hv, hu.tick (by omega) hv⟩

/-- The odd-frame skip applies (R127). -/
abbrev SkipsDot (s : State) : Prop :=
  s.cfg.oddFrameSkip = true ∧ s.ppu.oddFrame = true ∧ (s.ppu.mask.getLsbD 3 = true ∨ s.ppu.mask.getLsbD 4 = true)

/-- Where the position stands 89341 ticks after the start of a frame. -/
theorem ticks_89341 {s : State} (hline : s.ppu.scanline = 0) (hdot : s.ppu.dot = 0) (hm : s.mapper.isSome = true) :
    ∃ t, ticks 89341 s = .next t ∧ SameSetting s t ∧
      (t.ppu.scanline, t.ppu.dot, t.ppu.frameCount, t.ppu.oddFrame) =
        if SkipsDot s then (0, 0, s.ppu.frameCount + 1, !s.ppu.oddFrame)
        else (261, 340, s.ppu.frameCount, s.ppu.oddFrame) := by
  obtain ⟨u, hu, setting, inFrame, index, sameCount, sameParity⟩ := ticks_frameAfter hline hdot hm le_rfl
  obtain ⟨uline, udot⟩ := inFrame.position
  rw [index] at uline udot
  norm_num at uline udot
  obtain ⟨t, ht⟩ := exec_ppuTick_of_mapper (s := u) (setting.mapper ▸ hm)
  refine ⟨t, ticks_succ_eq_next.2 ⟨u, hu, ht⟩, setting.trans (exec_ppuTick_sameSetting ht), ?_⟩
  rw [(tickAdvancesPosition u t ht).1]
  simp only [uline, udot, sameCount, sameParity, setting.cfg, setting.mask, true_and, SkipsDot]
  rfl

/-- Settles O15: no tick before the last leads to (0, 0), for the position counts them; the last is tick 89341 if a dot is
skipped, and the tick after it otherwise. -/
theorem frameLength : Obligations.FrameLength := by
  unfold Obligations.FrameLength
  intro s hline hdot hm
  obtain ⟨t, ht, setting, hpos⟩ := ticks_89341 hline hdot hm
  have inside {n : Nat} {u : State} (hlo : 0 < n) (hhi : n ≤ 89340) (hu : ticks n s = .next u) :
      ¬(u.ppu.scanline = 0 ∧ u.ppu.dot = 0) := by
    obtain ⟨u', hu', after⟩ := ticks_frameAfter hline hdot hm hhi
    cases hu.symm.trans hu'
    have hindex := after.index
    unfold dotIndex at hindex
    omega
  by_cases hskip : SkipsDot s
  · rw [if_pos hskip] at hpos
    simp only [Prod.mk.injEq] at hpos
    simp only [if_pos hskip]
    exact ⟨⟨t, ht, hpos⟩, fun n u hlo hhi => inside hlo (by omega)⟩
  · rw [if_neg hskip] at hpos
    simp only [Prod.mk.injEq] at hpos
    obtain ⟨tline, tdot, tcount, tparity⟩ := hpos
    obtain ⟨v, hv⟩ := exec_ppuTick_of_mapper (s := t) (setting.mapper ▸ hm)
    have vpos := (tickAdvancesPosition t v hv).1
    simp only [tline, tdot, tcount, tparity] at vpos
    norm_num at vpos
    simp only [if_neg hskip]
    refine ⟨⟨v, ticks_succ_eq_next.2 ⟨t, ht, hv⟩, vpos⟩, fun n u hlo hhi hu => ?_⟩
    by_cases hn : n = 89341
    · subst hn
      cases ht.symm.trans hu
      omega
    · exact inside hlo (by omega) hu

/-! ## The scroll of the pre-render line (R132, R140, R141) -/

theorem copyX_self (t : BitVec 15) : copyX t t = t :=
  BitVec.eq_of_getLsbD_eq fun j _ => by rw [copyX_getLsbD, ite_self]

theorem copyX_copyX (t v : BitVec 15) : copyX t (copyX t v) = copyX t v :=
  BitVec.eq_of_getLsbD_eq fun j _ => by
    rw [copyX_getLsbD t (copyX t v), copyX_getLsbD t v]
    split <;> rfl

/-- Between them the two copies copy every bit. -/
theorem copyY_eq_of_copyX {t v : BitVec 15} (h : copyX t v = v) : copyY t v = t :=
  BitVec.eq_of_getLsbD_eq fun j _ => by
    rw [copyY_getLsbD, ← h, copyX_getLsbD]
    split <;> rfl

/-- What `v` holds of `t` before dot `k` of the pre-render line. -/
structure Loaded (t : BitVec 15) (k : Nat) (v : BitVec 15) : Prop where
  horizontal : 258 ≤ k → k ≤ 280 → copyX t v = v
  whole : 281 ≤ k → k ≤ 328 → v = t
  oneGroup : 329 ≤ k → k ≤ 336 → v = incX t
  twoGroups : 337 ≤ k → v = incX (incX t)

/-- `v` after dot `k` of the pre-render line (R132). -/
def preRenderV (t : BitVec 15) (k : Nat) (v : BitVec 15) : BitVec 15 :=
  if k = 256 then incY (incX v)
  else if k = 257 then copyX t v
  else if k % 8 = 0 ∧ ((1 ≤ k ∧ k ≤ 256) ∨ (321 ≤ k ∧ k ≤ 336)) then incX v
  else if 280 ≤ k ∧ k ≤ 304 then copyY t v
  else v

theorem Loaded.step {t v : BitVec 15} {k : Nat} (h : Loaded t k v) : Loaded t (k + 1) (preRenderV t k v) := by
  obtain ⟨horizontal, whole, oneGroup, twoGroups⟩ := h
  unfold preRenderV
  by_cases h256 : k = 256
  · constructor <;> omega
  by_cases h257 : k = 257
  · rw [if_neg h256, if_pos h257]
    exact ⟨fun _ _ => copyX_copyX t v, by omega, by omega, by omega⟩
  rw [if_neg h256, if_neg h257]
  by_cases hgroup : k % 8 = 0 ∧ ((1 ≤ k ∧ k ≤ 256) ∨ (321 ≤ k ∧ k ≤ 336))
  · rw [if_pos hgroup]
    exact ⟨by omega, by omega, fun _ _ => by rw [whole (by omega) (by omega)],
      fun _ => by rw [oneGroup (by omega) (by omega)]⟩
  rw [if_neg hgroup]
  by_cases hcopy : 280 ≤ k ∧ k ≤ 304
  · have hx : copyX t v = v := by
      by_cases hk : k = 280
      · exact horizontal (by omega) (by omega)
      · rw [whole (by omega) (by omega), copyX_self]
    rw [if_pos hcopy, copyY_eq_of_copyX hx]
    exact ⟨by omega, fun _ _ => rfl, by omega, by omega⟩
  · rw [if_neg hcopy]
    exact ⟨fun _ _ => horizontal (by omega) (by omega), fun _ _ => whole (by omega) (by omega),
      fun _ _ => oneGroup (by omega) (by omega), fun _ => twoGroups (by omega)⟩

/-- `k` ticks after the start of the pre-render line; the last of them may have skipped dot 340. -/
structure PreRenderAfter (s : State) (k : Nat) (u : State) : Prop where
  setting : SameSetting s u
  position : k < 340 → u.ppu.scanline = 261 ∧ u.ppu.dot = k
  loaded : Loaded s.ppu.t k u.ppu.v

theorem PreRenderAfter.tick {s u v : State} {k : Nat} (h : PreRenderAfter s k u) (hk : k < 340)
    (hen : s.ppu.mask.getLsbD 3 = true ∨ s.ppu.mask.getLsbD 4 = true) (hv : exec .ppuTick u = .next v) :
    PreRenderAfter s (k + 1) v := by
  obtain ⟨setting, position, loaded⟩ := h
  obtain ⟨uline, udot⟩ := position hk
  refine ⟨setting.trans (exec_ppuTick_sameSetting hv), fun hnext => ?position, ?loaded⟩
  case position =>
    have hpos := (tickAdvancesPosition u v hv).1
    rw [uline, udot, if_neg (by omega), if_neg (by omega)] at hpos
    simp only [Prod.mk.injEq] at hpos
    exact ⟨hpos.1, hpos.2.1⟩
  case loaded =>
    have hvv := scrollScheduleOfATick u v hv (setting.mask ▸ hen)
    simp only [uline, udot, setting.t, or_true, if_true, true_and] at hvv
    rw [hvv]
    exact loaded.step

/-- Settles O25: `CopyX` and the `CopyY`s load every bit of `t` into `v`, and two groups are fetched behind them. -/
theorem preRenderLineLoadsScroll : Obligations.PreRenderLineLoadsScroll := by
  unfold Obligations.PreRenderLineLoadsScroll
  intro s hline hdot hm hen
  obtain ⟨t, ht, setting, -, loaded⟩ : ∃ t, ticks 340 s = .next t ∧ PreRenderAfter s 340 t := by
    refine ticks_reach ⟨.refl s, fun _ => ⟨hline, hdot⟩, by constructor <;> omega⟩ fun k u hk hu => ?_
    obtain ⟨v, hv⟩ := exec_ppuTick_of_mapper (s := u) (hu.setting.mapper ▸ hm)
    exact ⟨v, hv, hu.tick hk hen hv⟩
  exact ⟨t, ht, loaded.twoGroups (by omega), setting.t⟩

end Sys2Proof.Machine
end

section
/-! PROOFS. The sprite pipeline (43_ppu_render.md section 4): the clear of secondary OAM, evaluation by the list of the
sprites in range, and the load of the sprite units. -/

namespace Sys2Proof.Machine

/-! ## The step at each of its dots (R143 to R146) -/

theorem spriteStep_clear {line : Nat} (hline : line < 240) (s : State) :
    spriteStep true line 64 s = some (clearSoam s) := by simp [spriteStep, hline]

theorem spriteStep_evaluate {line : Nat} (hline : line < 240) (s : State) :
    spriteStep true line 256 s = some (evaluateSprites s) := by simp [spriteStep, hline]

theorem spriteStep_load {line : Nat} (hline : line < 240) (s : State) :
    spriteStep true line 257 s = loadSprites s := by simp [spriteStep, hline]

theorem spriteStep_empty {en : Bool} {line : Nat} (h : line = 261 ∨ (line < 240 ∧ en = false)) (s : State) :
    spriteStep en line 257 s = some (sprEmpty s) := by
  obtain rfl | ⟨hline, rfl⟩ := h
  · rfl
  · rw [spriteStep_disabled, if_pos ⟨.inl hline, rfl⟩]

/-- A tick that fetches nothing completes with or without a mapper (R155, log 14). -/
theorem exec_ppuTick_of_no_fetch {s : State} (h : s.mapper.isSome = true ∨ tickFetches s.ppu = false) :
    ∃ t, exec .ppuTick s = .next t := by
  refine (execCompletesIffReady .ppuTick s).2 ?_
  show (s.mapper.isSome || !tickFetches s.ppu) = true
  simpa using h

theorem tickFetches_of_dot {p : Ppu} (hfetch : fetchDot p.dot = false) (h : p.dot ≠ 257 ∨ p.soamCount = 0) :
    tickFetches p = false := by
  rw [Bool.eq_false_iff, Ne, tickFetches_iff]
  rintro ⟨-, ⟨-, hdot⟩ | ⟨-, hdot, hcount⟩⟩
  · rw [hfetch] at hdot; cases hdot
  · exact h.elim (fun h => h hdot) fun h => hcount h

/-! ## Clearing and emptying (R143, R146) -/

theorem soamCleared_get {i : Nat} (hi : i < 32) : soamCleared.get i = 0xFF#8 :=
  (show ∀ i, i < 32 → soamCleared.get i = 0xFF#8 by decide) i hi

theorem sprPixel_of_no_unit {p : Ppu} (h : p.unitCount = 0) (x : Nat) : sprPixel p x = none := by
  rw [sprPixel_eq, h, List.take_zero, firstOpaque, ite_self]

/-- Settles O28: the step at dot 64 is `clearSoam`, that of dot 257 `sprEmpty`, and with no unit the scan for an opaque
pixel finds none. -/
theorem secondaryOamClearAndSpriteEmpty : Obligations.SecondaryOamClearAndSpriteEmpty := by
  unfold Obligations.SecondaryOamClearAndSpriteEmpty
  refine ⟨fun s hline hdot hen => ?clear, fun s t htick hdot hempty => ?empty, fun p x h => sprPixel_of_no_unit h x⟩
  case clear =>
    obtain ⟨t, ht⟩ := exec_ppuTick_of_no_fetch (s := s)
      (.inr (tickFetches_of_dot (by rw [hdot]; decide) (.inl (by omega))))
    obtain ⟨a, c, steps⟩ := exec_ppuTick_steps.1 ht
    have hspr := steps.sprites
    rw [hdot, renderingEnabled_eq_true.2 hen, spriteStep_clear hline] at hspr
    cases hspr
    exact ⟨t, ht, fun i hi => by rw [steps.soam_eq]; exact soamCleared_get hi⟩
  case empty =>
    obtain ⟨a, c, steps⟩ := exec_ppuTick_steps.1 htick
    have hspr := steps.sprites
    rw [← renderingEnabled_eq_false] at hempty
    rw [hdot, spriteStep_empty hempty] at hspr
    cases hspr
    rw [steps.after_pixel]
    exact ⟨rfl, rfl⟩

/-! ## Evaluation (R144) -/

/-- The sprites `ks`, in that order, in the slots from `n` on. -/
def copySprites (oam : Memory) : Memory → Nat → List Nat → Memory
  | soam, _, [] => soam
  | soam, n, k :: ks => copySprites oam (copySprite oam soam k n) (n + 1) ks

/-- The sprites among `ks` on the line after `line`, in order. -/
def spritesInRange (h line : Nat) (oam : Memory) (ks : List Nat) : List Nat :=
  ks.filter fun k => spriteInRange h line (oam.get (4 * k))

/-- The scan copies the sprites in range while there is a slot, and a further one in range is an overflow. -/
theorem evalScan_eq (h line : Nat) (oam : Memory) (ks : List Nat) (e : Evaluation) (he : e.n ≤ 8) :
    evalScan h line oam ks e =
      let found := spritesInRange h line oam ks
      { n := min 8 (e.n + found.length), soam := copySprites oam e.soam e.n (found.take (8 - e.n)),
        spr0 := e.spr0 || (found.take (8 - e.n)).contains 0,
        overflow := e.overflow || decide (8 < e.n + found.length) } := by
  induction ks generalizing e with
  | nil =>
    have hover : ¬ 8 < e.n := by omega
    simp [evalScan, spritesInRange, copySprites, hover, he]
  | cons k ks ih =>
    rw [evalScan]
    by_cases hk : spriteInRange h line (oam.get (4 * k)) = true
    case neg =>
      have hfound : spritesInRange h line oam (k :: ks) = spritesInRange h line oam ks := List.filter_cons_of_neg hk
      rw [if_neg hk, ih e he, hfound]
    have hfound : spritesInRange h line oam (k :: ks) = k :: spritesInRange h line oam ks :=
      List.filter_cons_of_pos hk
    rw [if_pos hk, hfound]
    by_cases hn : e.n < 8
    · have hslots : 8 - e.n = (8 - (e.n + 1)) + 1 := by omega
      rw [if_pos hn, ih _ (Nat.succ_le_of_lt hn), hslots]
      simp [copySprites, Nat.add_assoc, Nat.add_comm 1, Bool.or_assoc, beq_eq_decide, eq_comm]
    · have hfull : e.n = 8 := by omega
      simp [hfull, copySprites]

theorem copySprite_get (oam soam : Memory) (k n i : Nat) :
    (copySprite oam soam k n).get i =
      if 4 * n ≤ i ∧ i < 4 * n + 4 then oam.get (4 * k + (i - 4 * n)) else soam.get i := by
  simp only [copySprite, Memory.get_set]
  by_cases hi : 4 * n ≤ i ∧ i < 4 * n + 4
  · rw [if_pos hi]
    obtain ⟨j, rfl⟩ := Nat.exists_eq_add_of_le hi.1
    have hj : j < 4 := by omega
    interval_cases j <;> simp
  · rw [if_neg hi, if_neg (by omega), if_neg (by omega), if_neg (by omega), if_neg (by omega)]

theorem copySprites_get_of_lt (oam : Memory) {soam : Memory} {n i : Nat} (ks : List Nat) (hi : i < 4 * n) :
    (copySprites oam soam n ks).get i = soam.get i := by
  induction ks generalizing soam n with
  | nil => rfl
  | cons k ks ih => rw [copySprites, ih (by omega), copySprite_get, if_neg (by omega)]

theorem copySprites_get_of_ge (oam : Memory) {soam : Memory} {n i : Nat} (ks : List Nat) (hi : 4 * (n + ks.length) ≤ i) :
    (copySprites oam soam n ks).get i = soam.get i := by
  induction ks generalizing soam n with
  | nil => rfl
  | cons k ks ih =>
    rw [List.length_cons] at hi
    rw [copySprites, ih (by omega), copySprite_get, if_neg (by omega)]

theorem copySprites_get (oam : Memory) {soam : Memory} {n m j k : Nat} {ks : List Nat} (hk : ks[m]? = some k)
    (hj : j < 4) : (copySprites oam soam n ks).get (4 * (n + m) + j) = oam.get (4 * k + j) := by
  induction ks generalizing soam n m with
  | nil => cases hk
  | cons k' ks ih =>
    rw [copySprites]
    cases m with
    | zero =>
      obtain rfl : k' = k := Option.some.inj hk
      rw [copySprites_get_of_lt oam ks (by omega), copySprite_get, if_pos (by omega)]
      congr 1; omega
    | succ m =>
      rw [← ih (n := n + 1) hk]
      congr 1; omega

/-- The range of R144 in signed arithmetic. -/
theorem spriteInRange_eq (ctrl : Byte) (line : Nat) (y : Byte) :
    spriteInRange (spriteHeight ctrl) line y =
      decide (0 ≤ (line : Int) - (y.toNat : Int) ∧
        (line : Int) - (y.toNat : Int) < if ctrl.getLsbD 5 then 16 else 8) := by
  unfold spriteInRange spriteHeight ctrlSprSize
  rw [← Bool.decide_and, decide_eq_decide]
  split <;> omega

/-- Sprite 0 is the first looked at, so it is copied if it is in range. -/
theorem contains_zero_take_filter_range {n m : Nat} (p : Nat → Bool) :
    (((List.range (n + 1)).filter p).take (m + 1)).contains 0 = p 0 := by
  rw [List.range_succ_eq_map]
  by_cases hp : p 0 = true
  · simp [hp]
  · have hzero : 0 ∉ ((List.range n).map Nat.succ).filter p := by simp
    rw [List.filter_cons_of_neg hp, Bool.eq_false_iff.2 hp, Bool.eq_false_iff, Ne, List.contains_iff_mem]
    exact fun hmem => hzero (List.mem_of_mem_take hmem)

/-- The sprites that evaluation finds. -/
def foundSprites (s : State) : List Nat := spritesInRange (spriteHeight s.ppu.ctrl) s.ppu.scanline s.oam (List.range 64)

theorem evaluateSprites_eq (s : State) :
    evaluateSprites s =
      (s.setSoam (copySprites s.oam s.soam 0 ((foundSprites s).take 8))).setPpu
        { s.ppu with soamCount := min 8 (foundSprites s).length, spr0Next := ((foundSprites s).take 8).contains 0,
                     overflow := s.ppu.overflow || decide (8 < (foundSprites s).length) } := by
  have hscan := evalScan_eq (spriteHeight s.ppu.ctrl) s.ppu.scanline s.oam (List.range 64)
    { n := 0, soam := s.soam, spr0 := false, overflow := s.ppu.overflow } (Nat.zero_le 8)
  simp only [Nat.zero_add, Nat.sub_zero, Bool.false_or] at hscan
  rw [evaluateSprites, hscan]
  rfl

theorem contains_zero_foundSprites (s : State) :
    ((foundSprites s).take 8).contains 0 = spriteInRange (spriteHeight s.ppu.ctrl) s.ppu.scanline (s.oam.get 0) :=
  contains_zero_take_filter_range (n := 63) (m := 7)
    fun k => spriteInRange (spriteHeight s.ppu.ctrl) s.ppu.scanline (s.oam.get (4 * k))

/-- What the sprite pipeline reads is what the tick started with. -/
structure SpriteInput (s p : State) : Prop where
  ctrl : p.ppu.ctrl = s.ppu.ctrl
  scanline : p.ppu.scanline = s.ppu.scanline
  oam : p.oam = s.oam
  soam : p.soam = s.soam
  soamCount : p.ppu.soamCount = s.ppu.soamCount
  spr0Next : p.ppu.spr0Next = s.ppu.spr0Next
  units : p.ppu.units = s.ppu.units
  overflow : p.ppu.overflow = (flagEvents s).ppu.overflow
  reads : ∀ a, busRead p a = busRead s a

theorem TickSteps.spriteInput {s a c t : State} (h : TickSteps s a c t) :
    SpriteInput s (pixelStep (renderingEnabled s.ppu.mask) s.ppu.scanline s.ppu.dot a) := by
  rw [h.before_sprites]
  exact ⟨rfl, rfl, rfl, rfl, rfl, rfl, rfl, rfl, busRead_congr rfl rfl rfl rfl⟩

theorem SpriteInput.foundSprites_eq {s p : State} (h : SpriteInput s p) : foundSprites p = foundSprites s := by
  rw [foundSprites, h.ctrl, h.scanline, h.oam, foundSprites]

/-- What the tick of dot 256 of a visible line leaves with rendering enabled. -/
structure Evaluated (s t : State) : Prop where
  soamCount : t.ppu.soamCount = min 8 (foundSprites s).length
  overflow : t.ppu.overflow = (s.ppu.overflow || decide (8 < (foundSprites s).length))
  spr0Next : t.ppu.spr0Next = ((foundSprites s).take 8).contains 0
  soam : t.soam = copySprites s.oam s.soam 0 ((foundSprites s).take 8)

theorem TickSteps.evaluated {s a c t : State} (h : TickSteps s a c t) (hline : s.ppu.scanline < 240)
    (hdot : s.ppu.dot = 256) (hen : renderingEnabled s.ppu.mask = true) : Evaluated s t := by
  have hspr := h.sprites
  have hin := h.spriteInput
  have hflags := (flagEvents_s0hit_overflow (s := s) (by omega)).2
  generalize pixelStep (renderingEnabled s.ppu.mask) s.ppu.scanline s.ppu.dot a = p at hspr hin
  rw [hdot, hen, spriteStep_evaluate hline, evaluateSprites_eq, hin.foundSprites_eq, hin.oam, hin.soam, hin.overflow,
    hflags] at hspr
  have hppu := h.after_pixel
  have hsoam := h.soam_eq
  rw [← Option.some.inj hspr] at hppu hsoam
  exact ⟨by rw [hppu]; rfl, by rw [hppu]; rfl, by rw [hppu]; rfl, hsoam⟩

/-- Settles O29: the step at dot 256 is the scan of the 64 sprites, which copies the first eight of those in range. -/
theorem spriteEvaluation : Obligations.SpriteEvaluation := by
  unfold Obligations.SpriteEvaluation
  intro s hline hdot hen
  obtain ⟨t, ht⟩ := exec_ppuTick_of_no_fetch (s := s)
    (.inr (tickFetches_of_dot (by rw [hdot]; decide) (.inl (by omega))))
  obtain ⟨a, c, steps⟩ := exec_ppuTick_steps.1 ht
  obtain ⟨count, overflow, spr0Next, soam⟩ := steps.evaluated hline hdot (renderingEnabled_eq_true.2 hen)
  refine ⟨t, ht, ?_⟩
  have hfound : (List.range 64).filter
      (fun k => spriteInRange (spriteHeight s.ppu.ctrl) s.ppu.scanline (s.oam.get (4 * k))) = foundSprites s := rfl
  simp only [← spriteInRange_eq, hfound]
  refine ⟨count, by simpa using Bool.eq_iff_iff.1 overflow, by rw [spr0Next, contains_zero_foundSprites],
    fun n j hn hlen hj => ?copied, fun i hi => ?others, by rw [steps.frame]⟩
  case copied =>
    have hget : ((foundSprites s).take 8)[n]? = some ((foundSprites s).getD n 0) := by
      rw [List.getElem?_take_of_lt hn, List.getElem?_eq_getElem hlen, List.getD_eq_getElem _ _ hlen]
    rw [soam, ← copySprites_get s.oam hget hj, Nat.zero_add]
  case others => rw [soam, copySprites_get_of_ge _ _ (by rwa [Nat.zero_add, List.length_take])]

/-! ## The load of the units (R145) -/

/-- The loaded units are those of their secondary-OAM slots, and the others stay. -/
theorem loadUnits_getElem? {s : State} {is : List Nat} {us vs : Vector SpriteUnit 8} (h : loadUnits s is us = some vs)
    (i : Nat) :
    (i ∉ is → vs[i]? = us[i]?) ∧ (i ∈ is → i < 8 → ∃ u, loadUnit s i = some u ∧ vs[i]? = some u) := by
  induction is generalizing us with
  | nil => cases h; simp
  | cons k is ih =>
    obtain ⟨u, hu, hrest⟩ := Option.bind_eq_some_iff.1 h
    obtain ⟨hother, hloaded⟩ := ih hrest
    have hset : (us.setIfInBounds k u)[i]? = if k = i ∧ i < 8 then some u else us[i]? := by
      rw [Vector.getElem?_setIfInBounds]
      split <;> simp_all
    refine ⟨fun hi => ?_, fun hi hlt => ?_⟩
    · obtain ⟨hne, hnot⟩ := not_or.1 (mt List.mem_cons.2 hi)
      rw [hother hnot, hset, if_neg fun h => hne h.1.symm]
    · by_cases hmem : i ∈ is
      · exact hloaded hmem hlt
      · obtain rfl : i = k := (List.mem_cons.1 hi).resolve_right hmem
        exact ⟨u, hu, by rw [hother hmem, hset, if_pos ⟨rfl, hlt⟩]⟩

/-- The pattern address of R145 by the numbers in the sprite's bytes. -/
theorem spriteFetchAddr_eq_ofNat (ctrl tile : Byte) {row : Nat} (hrow : row < spriteHeight ctrl) :
    spriteFetchAddr ctrl tile row =
      BitVec.ofNat 14
        (if spriteHeight ctrl = 8 then (if ctrl.getLsbD 3 then 0x1000 else 0) + tile.toNat * 16 + row
         else tile.toNat % 2 * 0x1000 + (tile.toNat / 2 * 2 + row / 8) * 16 + row % 8) := by
  have heven : (tile &&& 0xFE#8).toNat = tile.toNat / 2 * 2 := by
    have hand : tile &&& 0xFE#8 = tile.extractLsb' 1 7 ++ 0#1 := and_high (m := 7) (k := 1) tile
    rw [hand, BitVec.toNat_append, extract_toNat, BitVec.toNat_ofNat, Nat.zero_mod, Nat.or_zero, Nat.shiftLeft_eq]
    omega
  have hlow : patternBase (tile.getLsbD 0) = tile.toNat % 2 * 0x1000 := by
    have hbit := getLsbD_toNat tile 0
    rw [pow_zero, Nat.div_one] at hbit
    rw [← hbit]
    cases tile.getLsbD 0 <;> rfl
  have hhalf : (if 8 ≤ row then 1 else 0) = row / 8 := by
    have := spriteHeight_le ctrl
    split <;> omega
  unfold spriteFetchAddr
  rw [heven, hlow, hhalf]
  unfold spriteHeight
  cases hsize : ctrlSprSize ctrl with
  | false => rfl
  | true => rfl

theorem loadUnit_eq_some {s : State} {i : Nat} {u : SpriteUnit} (h : loadUnit s i = some u) :
    u.x = s.soam.get (4 * i + 3) ∧ u.attr = s.soam.get (4 * i + 2) ∧ busRead s (unitFetchAddr s i) = some u.lo ∧
      busRead s (unitFetchAddr s i + 8#14) = some u.hi := by
  obtain ⟨lo, hlo, hrest⟩ := Option.bind_eq_some_iff.1 h
  obtain ⟨hi, hhi, rfl⟩ := Option.map_eq_some_iff.1 hrest
  exact ⟨rfl, rfl, hlo, hhi⟩

/-- The pattern bytes of a unit are those of the sprite the tick starts with. -/
theorem SpriteInput.unitFetchAddr_eq {s p : State} (h : SpriteInput s p) (i : Nat) :
    unitFetchAddr p i = unitFetchAddr s i := by
  simp only [unitFetchAddr, h.ctrl, h.scanline, h.soam]

/-- Settles O30: the step at dot 257 is the load of the units `0` to `soamCount - 1`, or the emptying. -/
theorem spriteUnitsLoad : Obligations.SpriteUnitsLoad := by
  unfold Obligations.SpriteUnitsLoad
  refine ⟨fun s hline hdot hm hcount hen => ?load, fun s hline hdot hbg hspr => ?empty⟩
  case empty =>
    have hen : renderingEnabled s.ppu.mask = false := renderingEnabled_eq_false.2 ⟨hbg, hspr⟩
    obtain ⟨t, ht, -⟩ := exec_ppuTick_disabled hen
    obtain ⟨a, c, steps⟩ := exec_ppuTick_steps.1 ht
    have hempty := secondaryOamClearAndSpriteEmpty.2.1 s t ht hdot (.inr ⟨hline, hbg, hspr⟩)
    obtain ⟨-, -, hunits, -⟩ := steps.sprite_writes
    exact ⟨t, ht, hempty.1, hempty.2, hunits.resolve_right (by simp [hen])⟩
  case load =>
    obtain ⟨t, ht⟩ := exec_ppuTick_of_no_fetch (s := s)
      (hm.imp_right fun hnone => tickFetches_of_dot (by rw [hdot]; decide) (.inr hnone))
    obtain ⟨a, c, steps⟩ := exec_ppuTick_steps.1 ht
    have hspr := steps.sprites
    have hin := steps.spriteInput
    have hppu := steps.after_pixel
    generalize pixelStep (renderingEnabled s.ppu.mask) s.ppu.scanline s.ppu.dot a = p at hspr hin hppu
    rw [hdot, renderingEnabled_eq_true.2 hen, spriteStep_load hline] at hspr
    obtain ⟨us, hus, rfl⟩ := Option.map_eq_some_iff.1 hspr
    have hunits : t.ppu.units = us := by rw [hppu]; rfl
    rw [hin.soamCount, hin.units] at hus
    have hget := loadUnits_getElem? hus
    refine ⟨t, ht, by rw [hppu]; exact hin.soamCount, by rw [hppu]; exact hin.spr0Next, fun i hi => ?others,
      fun i hi => ?loaded⟩
    case others => rw [hunits, (hget i).1 (by simpa using hi)]
    case loaded =>
      obtain ⟨u, hu, hi'⟩ := (hget i).2 (List.mem_range.2 hi) (by omega)
      obtain ⟨hx, hattr, hlo, hhi⟩ := loadUnit_eq_some hu
      rw [hin.soam] at hx hattr
      rw [hin.unitFetchAddr_eq, hin.reads] at hlo hhi
      have haddr := spriteFetchAddr_eq_ofNat s.ppu.ctrl (s.soam.get (4 * i + 1))
        (spriteRow_lt s.ppu.ctrl (s.soam.get (4 * i)) (s.soam.get (4 * i + 2)) s.ppu.scanline)
      refine ⟨u, by rw [hunits, hi'], hx, hattr, hlo ▸ congrArg _ haddr.symm, ?_⟩
      rw [BitVec.ofNat_add]
      exact hhi ▸ congrArg (fun b => busRead s (b + 8#14)) haddr.symm

end Sys2Proof.Machine
end

section
/-! PROOFS. What an operation stores (20_memory.md, 40_mapper.md): the writers of the mapper, of OAM, of nametable and
palette RAM and of the status flags, and the events an operation records. -/

namespace Sys2Proof.Machine

/-! ## The write rows of the cartridge are `CartWrite` at their own address -/

/-- The operation that a write word of the cartridge encodes is the one decoded from it. -/
theorem decodeCartW_of_encode {i : Instr} {v : Variant} {a : Addr} {d : Byte} (hword : encode i = cartWord 1#4 a d)
    (hwf : i.wf = true) (hv : i.variant? = some v) : decodeCartW v a d = i := by
  have hdecode := decodeOfEncode i hwf (some v) (.inr hv)
  rw [hword, cartWord, decode_mkWord] at hdecode
  exact Except.ok.inj hdecode

/-- A cartridge row completes where the slot holds its variant. -/
theorem mapper_of_exec_of_variant {i : Instr} {v : Variant} {s t : State} (hv : i.variant? = some v)
    (h : exec i s = .next t) : ∃ m, s.mapper = some m ∧ m.variant = v := by
  have hready := (execCompletesIffReady i s).1 ⟨t, h⟩
  rw [ready_of_variant hv, beq_iff_eq] at hready
  exact Option.map_eq_some_iff.1 hready

theorem exec_cartWrite {i : Instr} {v : Variant} {a : Addr} {d : Byte} {s t : State}
    (hword : encode i = cartWord 1#4 a d) (hwf : i.wf = true) (hv : i.variant? = some v) (h : exec i s = .next t) :
    ∃ m, s.mapper = some m ∧ t = (s.setMapper (some (m.write a d))).setReply .none := by
  obtain ⟨m, hm, rfl⟩ := mapper_of_exec_of_variant hv h
  rw [← decodeCartW_of_encode hword hwf hv, exec_decodeCartW hm] at h
  cases h
  exact ⟨m, hm, rfl⟩

/-! ## The stores -/

/-- The mapper and the memories an operation of the host writes. -/
structure Stores where
  mapper : Option Mapper
  oam : Memory
  ntram : Memory
  palette : Memory

def State.stores (s : State) : Stores := ⟨s.mapper, s.oam, s.ntram, s.palette⟩

/-- All an operation other than the factory can store: nothing, a `CartWrite`, bytes of OAM, or one byte of nametable or
palette RAM (R41, R65, R108, R116). -/
inductive Stored (i : Instr) (x : Stores) : Stores → Prop
  | nothing : Stored i x x
  | cart {m : Mapper} (hm : x.mapper = some m) (hwrites : writesMapper i = true) (a : Addr) (d : Byte) :
      Stored i x { x with mapper := some (m.write a d) }
  | oam {o : Memory} (harray : Memory.array 256 x.oam = true → Memory.array 256 o = true) :
      Stored i x { x with oam := o }
  | ntram {m : Mapper} (hm : x.mapper = some m) (a : BusAddr) (d : Byte) :
      Stored i x { x with ntram := x.ntram.set (ntIndex a m.mirroring) d }
  | palette (a : BusAddr) (d : Byte) : Stored i x { x with palette := x.palette.set (palIndex a) d }

/-- What an operation other than a tick stores, and that vblank stays but for a PPUSTATUS read and a power cycle (R104,
R174). -/
structure Writes (i : Instr) (s t : State) : Prop where
  stored : Stored i s.stores t.stores
  vblank : (∀ k, i ≠ .ppustatusR k) → i ≠ .ppuPowerCycle → t.ppu.vblank = s.ppu.vblank

theorem Writes.cart {i : Instr} {v : Variant} {a : Addr} {d : Byte} {s t : State}
    (hword : encode i = cartWord 1#4 a d) (hwf : i.wf = true) (hv : i.variant? = some v)
    (hwrites : writesMapper i = true) (h : exec i s = .next t) : Writes i s t := by
  obtain ⟨m, hm, rfl⟩ := exec_cartWrite hword hwf hv h
  exact ⟨.cart hm hwrites a d, fun _ _ => rfl⟩

theorem Writes.bus {i : Instr} {a : BusAddr} {d : Byte} {s t : State}
    (hpattern : a.toNat ≤ 0x1FFF → writesMapper i = true) (h : busWrite s a d = some t) : Writes i s t := by
  rcases busWrite_eq_some h with ⟨ha, m, hm, rfl⟩ | ⟨-, -, m, hm, rfl⟩ | ⟨-, rfl⟩
  · exact ⟨.cart hm (hpattern ha) _ d, fun _ _ => rfl⟩
  · exact ⟨.ntram hm a d, fun _ _ => rfl⟩
  · exact ⟨.palette a d, fun _ _ => rfl⟩

theorem Writes.busStore {i : Instr} {a : BusAddr} {d : Byte} {s t : State}
    (hpattern : a.toNat ≤ 0x1FFF → writesMapper i = true) (h : busStore s a d = .next t) : Writes i s t := by
  obtain ⟨u, hu, ⟨⟩⟩ := orNoCartridge_eq_next.1 h
  obtain ⟨stored, vblank⟩ := Writes.bus hpattern hu
  exact ⟨stored, vblank⟩

theorem ppudataReadEffect_writes {i : Instr} {s : State} {r : Byte × State} (h : ppudataReadEffect s = some r) :
    Writes i s r.2 := by
  unfold ppudataReadEffect at h
  simp only at h
  split at h
  · split at h
    · obtain ⟨b, -, rfl⟩ := Option.map_eq_some_iff.1 h; exact ⟨.nothing, fun _ _ => rfl⟩
    · obtain ⟨b, -, rfl⟩ := Option.map_eq_some_iff.1 h; exact ⟨.nothing, fun _ _ => rfl⟩
  · obtain ⟨b, -, rfl⟩ := Option.map_eq_some_iff.1 h; exact ⟨.nothing, fun _ _ => rfl⟩

theorem dmaCopy_array (s : State) (page : Byte) (n : Nat) {oam : Memory} (h : Memory.array 256 oam = true) :
    Memory.array 256 (dmaCopy s page (List.range n) oam) = true := by
  induction n with
  | zero => exact h
  | succ n ih =>
    rw [dmaCopy_range_succ]
    exact Memory.array_set (Nat.mod_lt _ (by decide)) _ ih

/-- What each operation other than a tick and the factory writes. -/
theorem exec_writes {i : Instr} {s t : State} (tick : i ≠ .ppuTick) (factory : ∀ id, i ≠ .mapFactory id)
    (h : exec i s = .next t) : Writes i s t := by
  cases i
  case ppuTick => exact absurd rfl tick
  case mapFactory id => exact absurd rfl (factory id)
  case ppuPowerCycle => cases h; exact ⟨.nothing, fun _ hpower => absurd rfl hpower⟩
  case ppustatusR k => cases h; exact ⟨.nothing, fun hstatus _ => absurd rfl (hstatus k)⟩
  case ppuctrlW k d =>
    obtain ⟨_, hexec, -⟩ := ppuctrlWrite k d s
    rw [hexec] at h
    cases h
    exact ⟨.nothing, fun _ _ => rfl⟩
  case ppuscrollW k d =>
    cases h
    refine ⟨.nothing, fun _ _ => ?_⟩
    show (scrollWrite (s.latch d).ppu d).vblank = _
    unfold scrollWrite
    split <;> rfl
  case ppuaddrW k d =>
    cases h
    refine ⟨.nothing, fun _ _ => ?_⟩
    show (addrWrite (s.latch d).ppu d).vblank = _
    unfold addrWrite
    split <;> rfl
  case oamdataW k d =>
    cases h
    exact ⟨.oam fun harray => Memory.array_set s.ppu.oamAddr.isLt d harray, fun _ _ => rfl⟩
  case oamdmaW page =>
    have harray : Memory.array 256 s.oam = true → _ := dmaCopy_array s page 256
    rw [exec_oamdmaW] at h
    generalize dmaCopy s page (List.range 256) s.oam = oam at h harray
    split at h
    · cases h
    · cases h
      exact ⟨.oam harray, fun _ _ => rfl⟩
  case ppudataR k =>
    obtain ⟨r, hr, ⟨⟩⟩ := orNoCartridge_eq_next.1 h
    obtain ⟨stored, vblank⟩ := ppudataReadEffect_writes hr
    exact ⟨stored, vblank⟩
  case ppudataP k =>
    obtain ⟨b, -, ⟨⟩⟩ := orNoCartridge_eq_next.1 h
    exact ⟨.nothing, fun _ _ => rfl⟩
  case ppudataW k d =>
    obtain ⟨u, heffect, ⟨⟩⟩ := orNoCartridge_eq_next.1 h
    obtain ⟨c, hc, rfl⟩ := Option.map_eq_some_iff.1 heffect
    obtain ⟨stored, vblank⟩ := Writes.bus (i := .ppudataW k d) (fun _ => rfl) hc
    exact ⟨stored, vblank⟩
  case mapTick | mapMirroring =>
    obtain ⟨m, -, ⟨⟩⟩ := withMapper_eq_next.1 h
    exact ⟨.nothing, fun _ _ => rfl⟩
  case nromChrW | mmc1PrgramW | mmc1WCtrl | mmc1WChr0 | mmc1WChr1 | mmc1WPrg | mmc1ChrW | uxromWBank | uxromChrW
      | cnromWBank | cnromChrW =>
    exact .cart rfl rfl rfl rfl h
  case nromChrR | nromPrgR | nromPrgW | nromPeek | nromUnmappedR | nromUnmappedW =>
    obtain ⟨m, -, -, ⟨⟩⟩ := withNrom_eq_next.1 h
    exact ⟨.nothing, fun _ _ => rfl⟩
  case mmc1PrgramR | mmc1PrgLoR | mmc1PrgHiR | mmc1ChrLoR | mmc1ChrHiR | mmc1Peek | mmc1UnmappedR | mmc1UnmappedW =>
    obtain ⟨m, r, -, -, ⟨⟩⟩ := withMmc1_eq_next.1 h
    exact ⟨.nothing, fun _ _ => rfl⟩
  case uxromPrgLoR | uxromPrgHiR | uxromChrR | uxromPeek | uxromUnmappedR | uxromUnmappedW =>
    obtain ⟨m, b, -, -, ⟨⟩⟩ := withUxrom_eq_next.1 h
    exact ⟨.nothing, fun _ _ => rfl⟩
  case cnromChrR | cnromPrgR | cnromPeek | cnromUnmappedR | cnromUnmappedW =>
    obtain ⟨m, b, -, -, ⟨⟩⟩ := withCnrom_eq_next.1 h
    exact ⟨.nothing, fun _ _ => rfl⟩
  case pbusPtR | pbusPtP | pbusPalR | pbusPalP | pbusNtR | pbusNtP =>
    obtain ⟨b, -, ⟨⟩⟩ := orNoCartridge_eq_next.1 h
    exact ⟨.nothing, fun _ _ => rfl⟩
  case pbusPtW o d => exact .busStore (fun _ => rfl) h
  case pbusNtW o d => exact .busStore (fun ha => by rw [ntBusAddr_toNat] at ha; omega) h
  case pbusPalW o d => exact .busStore (fun ha => by rw [palBusAddr_toNat] at ha; omega) h
  -- The other window rows, the reset and the queries store nothing outside the PPU's registers.
  all_goals cases h; exact ⟨.nothing, fun _ _ => rfl⟩

/-! ## Events (R29, R158, R161) -/

/-- Settles O21: a tick records the event of (241, 1), PPUCTRL and OAM DMA their own, and no other operation any; what they
write in the PPU is `WindowFrame`. -/
theorem outputsAndPosition : Obligations.OutputsAndPosition := by
  unfold Obligations.OutputsAndPosition
  intro i s t h
  have hppu : i ≠ .ppuTick → i ≠ .ppuPowerCycle → i ≠ .ppuReset → WindowFrame s t := fun tick power reset =>
    exec_windowOutcome s tick power reset t h
  by_cases tick : i = .ppuTick
  · subst tick
    obtain ⟨a, c, steps⟩ := exec_ppuTick_steps.1 h
    have hhistory := steps.history_eq
    rw [flagEvents_history] at hhistory
    rw [steps.frame]
    refine ⟨rfl, rfl, rfl, rfl, ?_, fun hne => absurd rfl hne⟩
    split at hhistory
    next hevent => exact .inr (.inl ⟨hhistory, rfl, hevent.1.1, hevent.1.2, hevent.2⟩)
    next => exact .inl hhistory
  by_cases ctrl : ∃ k d, i = .ppuctrlW k d
  · obtain ⟨k, d, rfl⟩ := ctrl
    obtain ⟨_, hexec, -⟩ := ppuctrlWrite k d s
    rw [hexec] at h
    cases h
    refine ⟨rfl, rfl, rfl, rfl, ?_, fun htick hpower hreset => ⟨rfl, hppu htick hpower hreset⟩⟩
    by_cases hsignal : s.cfg.nmiOnCtrlEnable = true ∧ s.ppu.ctrl.getLsbD 7 = false ∧ d.getLsbD 7 = true ∧
        s.ppu.vblank = true
    · obtain ⟨hparam, hold, hnew, hvblank⟩ := id hsignal
      exact .inr (.inr (.inl ⟨if_pos hsignal, k, d, rfl, hparam, hvblank, hold, hnew⟩))
    · exact .inl (if_neg hsignal)
  by_cases dma : ∃ page, i = .oamdmaW page
  · obtain ⟨page, rfl⟩ := dma
    rw [exec_oamdmaW] at h
    generalize dmaCopy s page (List.range 256) s.oam = oam at h
    split at h
    · cases h
    · cases h
      exact ⟨rfl, rfl, rfl, rfl, .inr (.inr (.inr ⟨page, rfl, rfl⟩)),
        fun htick hpower hreset => ⟨rfl, hppu htick hpower hreset⟩⟩
  · have hsilent := exec_silentFrame tick (fun k d hi => ctrl ⟨k, d, hi⟩) (fun page hi => dma ⟨page, hi⟩) h
    unfold SilentFrame at hsilent
    refine ⟨?_, ?_, ?_, ?_, .inl ?_, fun htick hpower hreset => ⟨?_, hppu htick hpower hreset⟩⟩ <;> rw [hsilent]

/-! ## The mapper (R31, R65, R72) -/

/-- A tick leaves the stores alone. -/
theorem exec_ppuTick_stores {s t : State} (h : exec .ppuTick s = .next t) : t.stores = s.stores := by
  obtain ⟨a, c, steps⟩ := exec_ppuTick_steps.1 h
  rw [steps.frame]
  rfl

theorem exec_stored {i : Instr} {s t : State} (factory : ∀ id, i ≠ .mapFactory id) (h : exec i s = .next t) :
    Stored i s.stores t.stores := by
  by_cases tick : i = .ppuTick
  · subst tick
    rw [exec_ppuTick_stores h]
    exact .nothing
  · exact (exec_writes tick factory h).stored

/-- What becomes of the mapper where an operation stores `x'` over `x`. -/
theorem Stored.mapper_cases {i : Instr} {x x' : Stores} (h : Stored i x x') :
    x'.mapper = x.mapper ∨
      ∃ m a d, x.mapper = some m ∧ writesMapper i = true ∧ x'.mapper = some (m.write a d) := by
  cases h with
  | cart hm hwrites a d => exact .inr ⟨_, a, d, hm, hwrites, rfl⟩
  | nothing | oam | ntram | palette => exact .inl rfl

/-- Settles O59: where the mapper changes it does so by a `CartWrite`, which keeps what `Mapper.Same` names. -/
theorem mapperChangesOnlyByWrites : Obligations.MapperChangesOnlyByWrites := by
  unfold Obligations.MapperChangesOnlyByWrites
  intro i s t h factory
  obtain hsame | ⟨m, a, d, hm, hwrites, hwritten⟩ := (exec_stored factory h).mapper_cases
  · exact ⟨hsame.trans, fun m hm => ⟨m, hsame.trans hm, rfl, rfl, rfl, rfl, rfl, fun _ => rfl, fun _ => rfl⟩⟩
  · refine ⟨fun hnone => absurd (hm.symm.trans hnone) (by simp), fun m' hm' => ?_⟩
    obtain rfl : m = m' := Option.some.inj (hm.symm.trans hm')
    obtain ⟨prg, prgSize, chrSize, hint, variant, rom⟩ := m.write_same a d
    exact ⟨_, hwritten, prg, prgSize, chrSize, hint, variant, rom, fun hno => by rw [hno] at hwrites; cases hwrites⟩

/-! ## The status flags (R103, R104, R123, R124, R144, R150, R174) -/

theorem exec_vblank {i : Instr} {s t : State} (tick : i ≠ .ppuTick) (status : ∀ k, i ≠ .ppustatusR k)
    (power : i ≠ .ppuPowerCycle) (h : exec i s = .next t) : t.ppu.vblank = s.ppu.vblank := by
  by_cases factory : ∃ id, i = .mapFactory id
  · obtain ⟨id, rfl⟩ := factory
    change execMapFactory id s = .next t at h
    unfold execMapFactory at h
    split at h
    · cases h; rfl
    · cases h; rfl
  · exact (exec_writes tick (not_exists.1 factory) h).vblank status power

/-- The rendering flags are written by a tick and a power cycle alone; a reset keeps them (R175). -/
theorem exec_renderingFlags {i : Instr} {s t : State} (tick : i ≠ .ppuTick) (power : i ≠ .ppuPowerCycle)
    (h : exec i s = .next t) : t.ppu.s0hit = s.ppu.s0hit ∧ t.ppu.overflow = s.ppu.overflow := by
  by_cases reset : i = .ppuReset
  · subst reset
    cases h
    exact ⟨rfl, rfl⟩
  · have hwindow : WindowFrame s t := exec_windowOutcome s tick power reset t h
    unfold WindowFrame at hwindow
    rw [hwindow]
    exact ⟨rfl, rfl⟩

theorem flagEvents_vblank_eq (s : State) :
    (flagEvents s).ppu.vblank =
      if s.ppu.scanline = 241 ∧ s.ppu.dot = 1 then true
      else if s.ppu.scanline = 261 ∧ s.ppu.dot = 1 then false else s.ppu.vblank := by
  split_ifs with hvblank hclear
  · rw [flagEvents_vblank hvblank.1 hvblank.2, vblankStart_eq]
  · rw [flagEvents_preRender hclear.1 hclear.2]; rfl
  · rw [flagEvents_other hvblank hclear]

/-- But for evaluation the sprite pipeline leaves the overflow flag alone. -/
theorem spriteStep_overflow {en : Bool} {line d : Nat} {s t : State} (h : spriteStep en line d s = some t)
    (hd : ¬(line < 240 ∧ d = 256 ∧ en = true)) : t.ppu.overflow = s.ppu.overflow := by
  unfold spriteStep at h
  by_cases hline : line < 240
  · rw [if_pos hline, if_neg (fun hd' : d = 256 ∧ en = true => hd ⟨hline, hd'⟩)] at h
    split_ifs at h
    · cases h; rfl
    · obtain ⟨us, -, rfl⟩ := Option.map_eq_some_iff.1 h; rfl
    · cases h; rfl
    · cases h; rfl
  · rw [if_neg hline] at h
    split_ifs at h
    · cases h; rfl
    · cases h; rfl

section steps
variable {s a c t : State} (h : TickSteps s a c t)
include h

theorem TickSteps.overflow_of_not_evaluation (hd : ¬(s.ppu.scanline < 240 ∧ s.ppu.dot = 256)) :
    t.ppu.overflow = (flagEvents s).ppu.overflow := by
  have hspr := spriteStep_overflow h.sprites fun hd' => hd ⟨hd'.1, hd'.2.1⟩
  rw [h.after_pixel]
  exact hspr.trans h.spriteInput.overflow

theorem TickSteps.overflow_raised (hclear : s.ppu.overflow = false) (hset : t.ppu.overflow = true) :
    s.ppu.scanline < 240 ∧ s.ppu.dot = 256 := by
  by_contra hd
  rw [h.overflow_of_not_evaluation hd] at hset
  by_cases hpos : s.ppu.scanline = 261 ∧ s.ppu.dot = 1
  · rw [flagEvents_preRender hpos.1 hpos.2] at hset; cases hset
  · rw [(flagEvents_s0hit_overflow hpos).2, hclear] at hset; cases hset

theorem TickSteps.overflow_kept (hset : s.ppu.overflow = true) (hpos : ¬(s.ppu.scanline = 261 ∧ s.ppu.dot = 1)) :
    t.ppu.overflow = true := by
  by_cases hd : (s.ppu.scanline < 240 ∧ s.ppu.dot = 256) ∧ renderingEnabled s.ppu.mask = true
  · rw [(h.evaluated hd.1.1 hd.1.2 hd.2).overflow, hset, Bool.true_or]
  · have hspr := spriteStep_overflow h.sprites fun hd' => hd ⟨⟨hd'.1, hd'.2.1⟩, hd'.2.2⟩
    rw [h.after_pixel]
    exact (hspr.trans h.spriteInput.overflow).trans ((flagEvents_s0hit_overflow hpos).2.trans hset)

theorem TickSteps.vblank_raised (hclear : s.ppu.vblank = false) (hset : t.ppu.vblank = true) :
    s.ppu.scanline = 241 ∧ s.ppu.dot = 1 := by
  by_contra hpos
  rw [h.vblank_eq, flagEvents_vblank_eq, if_neg hpos, hclear, ite_self] at hset
  cases hset

theorem TickSteps.vblank_cleared (hset : s.ppu.vblank = true) (hclear : t.ppu.vblank = false) :
    s.ppu.scanline = 261 ∧ s.ppu.dot = 1 := by
  by_contra hpos
  rw [h.vblank_eq, flagEvents_vblank_eq, if_neg hpos, hset, ite_self] at hclear
  cases hclear

end steps

/-- Settles O19: a tick by the writers of each flag, a power cycle clears all three, a PPUSTATUS read vblank, and no other
operation writes them. -/
theorem statusFlagWriters : Obligations.StatusFlagWriters := by
  unfold Obligations.StatusFlagWriters
  intro i s t h
  by_cases tick : i = .ppuTick
  case pos =>
    subst tick
    obtain ⟨a, c, steps⟩ := exec_ppuTick_steps.1 h
    refine ⟨fun hs ht => ⟨rfl, steps.vblank_raised hs ht⟩, fun hs ht => .inl ⟨rfl, steps.vblank_cleared hs ht⟩,
      fun hs ht => ?hitRaised, fun hs ht => .inl ⟨rfl, ?hitCleared⟩, fun hs ht => ⟨rfl, steps.overflow_raised hs ht⟩,
      fun hs ht => .inl ⟨rfl, ?overflowCleared⟩⟩
    case hitRaised =>
      obtain ⟨hline, hlo, hhi, -⟩ := (steps.s0hit_iff hs).1 ht
      exact ⟨rfl, hline, hlo, hhi⟩
    case hitCleared => exact by_contra fun hpos => absurd (steps.s0hit_kept hs hpos) (by rw [ht]; nofun)
    case overflowCleared => exact by_contra fun hpos => absurd (steps.overflow_kept hs hpos) (by rw [ht]; nofun)
  by_cases power : i = .ppuPowerCycle
  case pos =>
    subst power
    rw [exec_ppuPowerCycle] at h
    cases h
    exact ⟨nofun, fun _ _ => .inr (.inr rfl), nofun, fun _ _ => .inr rfl, nofun, fun _ _ => .inr rfl⟩
  obtain ⟨hhit, hoverflow⟩ := exec_renderingFlags tick power h
  have hvblank : ((∃ k, i = .ppustatusR k) ∧ t.ppu.vblank = false) ∨ t.ppu.vblank = s.ppu.vblank := by
    by_cases status : ∃ k, i = .ppustatusR k
    · obtain ⟨k, rfl⟩ := status
      cases h
      exact .inl ⟨⟨k, rfl⟩, rfl⟩
    · exact .inr (exec_vblank tick (not_exists.1 status) power h)
  have hkept (b : Bool) {p : Prop} (hf : b = false) (ht : b = true) : p := by rw [hf] at ht; cases ht
  rw [hhit, hoverflow]
  refine ⟨fun hs ht => ?_, fun hs ht => ?_, hkept _, fun ht hf => hkept _ hf ht, hkept _, fun ht hf => hkept _ hf ht⟩
  · obtain ⟨-, hcleared⟩ | hsame := hvblank
    · exact hkept _ hcleared ht
    · exact hkept _ hs (hsame ▸ ht)
  · obtain ⟨hstatus, -⟩ | hsame := hvblank
    · exact .inr (.inl hstatus)
    · exact hkept _ (hsame ▸ ht) hs

/-! ## The vblank flag over a frame (R130) -/

/-- A session keeps what each of its operations keeps; `R k u` speaks of a state `u` after `k` ticks, of at most `last`. -/
theorem execAll_counts {R : Nat → State → Prop} {P : Instr → Prop} {last : Nat}
    (tick : ∀ k u v, k < last → R k u → exec .ppuTick u = .next v → R (k + 1) v)
    (other : ∀ k i u v, i ≠ .ppuTick → P i → R k u → exec i u = .next v → R k v)
    {is : List Instr} {s t : State} {k : Nat} (hP : ∀ i ∈ is, P i) (h : execAll is s = .next t)
    (hlast : k + is.count .ppuTick ≤ last) (start : R k s) : R (k + is.count .ppuTick) t := by
  induction is generalizing s k with
  | nil => cases h; exact start
  | cons i is ih =>
    obtain ⟨u, hi, hrest⟩ := execAll_cons_eq_next.1 h
    obtain ⟨hhead, htail⟩ := List.forall_mem_cons.1 hP
    by_cases htick : i = .ppuTick
    · subst htick
      rw [List.count_cons_self] at hlast ⊢
      have hnext := ih (k := k + 1) htail hrest (by omega) (tick k s u (by omega) start hi)
      rwa [Nat.add_right_comm] at hnext
    · rw [List.count_cons_of_ne htick] at hlast ⊢
      exact ih htail hrest hlast (other k i s u htick hhead start hi)

theorem Ppu.InFrame.preRender_iff {p : Ppu} (h : p.InFrame) : (p.scanline = 261 ∧ p.dot = 1) ↔ dotIndex p = 89002 := by
  obtain ⟨hline, hdot⟩ := h
  unfold dotIndex
  omega

/-- The flag, and the position it goes by, `k` ticks after the start of a frame. -/
structure VblankAfter (k : Nat) (u : State) : Prop where
  inFrame : u.ppu.InFrame
  index : k < 89341 → dotIndex u.ppu = k
  vblank : u.ppu.vblank = true ↔ 82183 ≤ k ∧ k < 89003

theorem VblankAfter.tick {k : Nat} {u v : State} (h : VblankAfter k u) (hk : k < 89341)
    (hexec : exec .ppuTick u = .next v) : VblankAfter (k + 1) v := by
  obtain ⟨inFrame, index, vblank⟩ := h
  have hindex := index hk
  obtain ⟨vframe, vindex⟩ := exec_ppuTick_dotIndex inFrame hexec
  refine ⟨vframe, by omega, ?_⟩
  obtain ⟨a, c, steps⟩ := exec_ppuTick_steps.1 hexec
  rw [steps.vblank_eq, flagEvents_vblank_eq]
  simp only [inFrame.vblank_iff, inFrame.preRender_iff, hindex]
  by_cases hset : k = 82182
  · simp [hset]
  by_cases hclear : k = 89002
  · simp [hclear]
  · rw [if_neg hset, if_neg hclear, vblank]
    omega

theorem VblankAfter.other {k : Nat} {i : Instr} {u v : State} (h : VblankAfter k u) (htick : i ≠ .ppuTick)
    (hi : i ≠ .ppuPowerCycle ∧ i ≠ .ppuReset ∧ ∀ k, i ≠ .ppustatusR k) (hexec : exec i u = .next v) :
    VblankAfter k v := by
  obtain ⟨power, reset, status⟩ := hi
  obtain ⟨vframe, vindex⟩ := exec_dotIndex htick ⟨power, reset⟩ h.inFrame hexec
  exact ⟨vframe, fun hk => vindex.trans (h.index hk), by rw [exec_vblank htick status power hexec]; exact h.vblank⟩

/-- Settles O16: the ticks number 82182 and 89002 are those of (241, 1) and (261, 1), and nothing else the host does
writes the flag. -/
theorem vblankFlagOverAFrame : Obligations.VblankFlagOverAFrame := by
  unfold Obligations.VblankFlagOverAFrame
  intro is s t hline hdot hclear hP hexec hcount
  obtain ⟨hframe, hindex⟩ := inFrame_of_origin hline hdot
  have hafter : VblankAfter (0 + is.count .ppuTick) t :=
    execAll_counts (fun _ _ _ hk hu => hu.tick hk) (fun _ _ _ _ htick hi hu => hu.other htick hi) hP hexec (by omega)
      ⟨hframe, fun _ => hindex, by simp [hclear]⟩
  rw [Nat.zero_add] at hafter
  exact hafter.vblank

end Sys2Proof.Machine
end

section
/-! PROOFS. The invariant every step keeps (10_state.md sections 4 to 8): of the mapper under a `CartWrite` and from the
factory, of the memories under their writes, of the PPU under a tick. -/

namespace Sys2Proof.Machine

/-! ## The mapper (R31, R33, R71, R75) -/

theorem Mapper.inv_iff {m : Mapper} :
    m.inv = true ↔
      m.prgSize ≠ 0 ∧ m.prgSize % 16384 = 0 ∧ m.chrSize % 8192 = 0 ∧ Memory.array m.prgSize m.prg = true ∧
        Memory.array (max m.chrSize 8192) m.chr = true ∧ m.regs.inv = true := by
  simp only [Mapper.inv, Bool.and_eq_true, decide_eq_true_eq, and_assoc]

theorem Mapper.setRegs_inv {m : Mapper} {regs : MapperRegs} (h : m.inv = true) (hregs : regs.inv = true) :
    ({ m with regs := regs } : Mapper).inv = true := by
  obtain ⟨hne, hprg, hchr, hprgArray, hchrArray, -⟩ := Mapper.inv_iff.1 h
  exact Mapper.inv_iff.2 ⟨hne, hprg, hchr, hprgArray, hchrArray, hregs⟩

/-- CHR-RAM has 8192 bytes; a write beyond them cannot be reached. -/
theorem Mapper.chrWrite_inv {m : Mapper} {off : Nat} (d : Byte) (h : m.inv = true)
    (hoff : m.chrSize = 0 → off < 8192) : (m.chrWrite off d).inv = true := by
  obtain ⟨hne, hprg, hchr, hprgArray, hchrArray, hregs⟩ := Mapper.inv_iff.1 h
  unfold Mapper.chrWrite
  split
  next hram =>
    refine Mapper.inv_iff.2 ⟨hne, hprg, hchr, hprgArray, Memory.array_set ?_ d hchrArray, hregs⟩
    exact (hoff hram).trans_le (le_max_right _ _)
  next => exact h

/-- The offset of a bank's byte is below the size of all banks. -/
theorem bankOffset_lt {select count size off : Nat} (hcount : 0 < count) (hoff : off < size) :
    bankOffset select count size off < count * size := by
  unfold bankOffset
  calc select % count * size + off < select % count * size + size := Nat.add_lt_add_left hoff _
    _ = (select % count + 1) * size := (Nat.succ_mul _ _).symm
    _ ≤ count * size := Nat.mul_le_mul_right _ (Nat.mod_lt _ hcount)

theorem Mapper.mmc1ChrOff_lt {m : Mapper} (r : Mmc1) (a : Addr) (hram : m.chrSize = 0) : m.mmc1ChrOff r a < 8192 := by
  have hbanks : m.nchr4 = 2 := by rw [Mapper.nchr4, Mapper.nchr8, hram]; rfl
  have hlt := bankOffset_lt (select := if a.toNat < 0x1000 then r.chrBanks.1 else r.chrBanks.2) (count := 2)
    (by decide) (Nat.mod_lt a.toNat (show 0 < Config.chrBank4 by decide))
  unfold Mapper.mmc1ChrOff
  rwa [hbanks]

theorem Mapper.cnromChrOff_lt {m : Mapper} (bank : Byte) (a : Addr) (hram : m.chrSize = 0) :
    m.cnromChrOff bank a < 8192 := by
  have hbanks : m.nchr8 = 1 := by rw [Mapper.nchr8, hram]; rfl
  have hlt := bankOffset_lt (select := bank.toNat) (count := 1) (by decide)
    (Nat.mod_lt a.toNat (show 0 < Config.chrBank by decide))
  unfold Mapper.cnromChrOff
  rwa [hbanks]

theorem Mapper.write_inv {m : Mapper} (a : Addr) (d : Byte) (h : m.inv = true) : (m.write a d).inv = true := by
  obtain ⟨-, -, -, -, -, hregs⟩ := Mapper.inv_iff.1 h
  unfold Mapper.write
  cases hr : m.regs with
  | nrom =>
    simp only [Mapper.nromWrite]
    split
    next hchr => exact Mapper.chrWrite_inv d h fun _ => hchr
    next => exact h
  | mmc1 r =>
    rw [hr, MapperRegs.inv, Bool.and_eq_true, decide_eq_true_eq] at hregs
    obtain ⟨hcount, hprgram⟩ := hregs
    simp only [Mapper.mmc1Write]
    split
    next => exact Mapper.chrWrite_inv d h (Mapper.mmc1ChrOff_lt r a)
    next =>
      obtain ⟨hsame, hcount'⟩ := Mmc1.serialWrite_frame r (a.extractLsb' 13 2) d hcount
      split
      next => exact Mapper.setRegs_inv h (by simp [MapperRegs.inv, hsame, hcount', hprgram])
      next hprg =>
        split
        next =>
          refine Mapper.setRegs_inv h ?_
          simp [MapperRegs.inv, hcount, Memory.array_set (show a.toNat - 0x6000 < 8192 by omega) d hprgram]
        next => exact h
  | uxrom b =>
    simp only [Mapper.uxromWrite]
    split
    next hchr => exact Mapper.chrWrite_inv d h fun _ => hchr
    next =>
      split
      next => exact Mapper.setRegs_inv h rfl
      next => exact h
  | cnrom b =>
    simp only [Mapper.cnromWrite]
    split
    next => exact Mapper.chrWrite_inv d h (Mapper.cnromChrOff_lt b a)
    next =>
      split
      next => exact Mapper.setRegs_inv h rfl
      next => exact h

/-- The topology is `FOUR_SCREEN` exactly when the hint is, whatever the registers hold. -/
theorem Mapper.mirroring_eq_fourScreen_iff (m : Mapper) : m.mirroring = .fourScreen ↔ m.hint = .fourScreen := by
  refine ⟨fun h => ?_, Mapper.mirroring_of_fourScreen⟩
  by_cases hr : ∃ r, m.regs = .mmc1 r
  · obtain ⟨r, hr⟩ := hr
    rw [Mapper.mirroring_of_mmc1 hr] at h
    by_contra hhint
    rw [if_neg hhint, Mmc1.topology] at h
    split at h <;> cases h
  · rw [Mapper.mirroring_of_not_mmc1 (not_exists.1 hr)] at h
    cases hhint : m.hint with
    | fourScreen => rfl
    | horizontal | vertical => rw [hhint] at h; cases h

theorem Mapper.ntramSizeOf_write (m : Mapper) (a : Addr) (d : Byte) :
    ntramSizeOf (some (m.write a d)) = ntramSizeOf (some m) := by
  have hiff : (m.write a d).mirroring = .fourScreen ↔ m.mirroring = .fourScreen := by
    rw [Mapper.mirroring_eq_fourScreen_iff, Mapper.mirroring_eq_fourScreen_iff, (m.write_same a d).hint]
  exact if_congr hiff rfl rfl

/-- The factory builds mappers of whole, nonempty banks. -/
theorem Metadata.construct_inv {md : Metadata} {id : Byte} {regs : MapperRegs} (h : md.inv = true)
    (hvalid : md.validates = true) (hregs : regsOf id = some regs) : (md.construct regs).inv = true := by
  obtain ⟨-, hne, hprg, hchr, hprgLen, hchrLen⟩ := Metadata.validates_iff.1 hvalid
  obtain ⟨hprgBytes, hchrBytes⟩ := Bool.and_eq_true_iff.1 h
  refine Mapper.inv_iff.2 ⟨hne, hprg, hchr, ?prg, ?chr, ?regs⟩
  case prg =>
    show Memory.array md.prgSize md.prgBytes.bytes = true
    rw [← hprgLen]
    exact hprgBytes
  case chr =>
    show Memory.array (max md.chrSize 8192) (if md.chrSize = 0 then [] else md.chrBytes.bytes) = true
    split
    next => rfl
    next hrom =>
      rw [max_eq_left (by omega), ← hchrLen]
      exact hchrBytes
  case regs =>
    show regs.inv = true
    unfold regsOf at hregs
    split at hregs
    · cases hregs; rfl
    · cases hregs; rfl
    · cases hregs; rfl
    · cases hregs; rfl
    · cases hregs

/-! ## The invariant, part by part -/

theorem Ppu.inv_iff {p : Ppu} :
    p.inv = true ↔
      p.scanline < 262 ∧ p.dot < 341 ∧ p.soamCount ≤ 8 ∧ p.unitCount ≤ 8 ∧ Framebuffer.wf p.framebuffer = true := by
  simp only [Ppu.inv, Bool.and_eq_true, decide_eq_true_eq, and_assoc]

/-- The mapper and the memories the host writes. -/
structure Stores.Inv (x : Stores) : Prop where
  mapper : x.mapper.all Mapper.inv = true
  oam : Memory.array 256 x.oam = true
  ntram : Memory.array (ntramSizeOf x.mapper) x.ntram = true
  palette : Memory.array 32 x.palette = true

/-- What the host hands over. -/
structure HostInv (s : State) : Prop where
  cartridge : s.cartridge.inv = true
  cpuMem : Memory.array 65536 s.cpuMem = true
  unmapped : Memory.array 65536 s.cfg.unmappedRead = true
  inbox : s.inbox.all Transaction.inv = true

theorem State.inv_iff {s : State} :
    s.inv = true ↔ s.ppu.inv = true ∧ s.stores.Inv ∧ Memory.array 32 s.soam = true ∧ HostInv s := by
  simp only [State.inv, Bool.and_eq_true]
  constructor
  · rintro ⟨⟨⟨⟨⟨⟨⟨⟨⟨hppu, hmapper⟩, hoam⟩, hsoam⟩, hntram⟩, hpalette⟩, hcart⟩, hcpu⟩, hcfg⟩, hinbox⟩
    exact ⟨hppu, ⟨hmapper, hoam, hntram, hpalette⟩, hsoam, hcart, hcpu, hcfg, hinbox⟩
  · rintro ⟨hppu, ⟨hmapper, hoam, hntram, hpalette⟩, hsoam, hcart, hcpu, hcfg, hinbox⟩
    exact ⟨⟨⟨⟨⟨⟨⟨⟨⟨hppu, hmapper⟩, hoam⟩, hsoam⟩, hntram⟩, hpalette⟩, hcart⟩, hcpu⟩, hcfg⟩, hinbox⟩

theorem Ppu.initial_inv : Ppu.initial.inv = true := by decide

/-- Settles O10: at construction the PPU's counters are 0 and the framebuffer and the host's memories empty. -/
theorem constructionHasInvariant : Obligations.ConstructionHasInvariant := by
  unfold Obligations.ConstructionHasInvariant
  refine ⟨fun cfg oam soam ntram palette hcfg hoam hsoam hntram hpalette => State.inv_iff.2 ?_, by decide⟩
  exact ⟨Ppu.initial_inv, ⟨rfl, hoam, hntram, hpalette⟩, hsoam, rfl, rfl, hcfg, rfl⟩

theorem Stored.inv {i : Instr} {x x' : Stores} (h : Stored i x x') (hx : x.Inv) : x'.Inv := by
  obtain ⟨mapper, oam, ntram, palette⟩ := hx
  cases h with
  | nothing => exact ⟨mapper, oam, ntram, palette⟩
  | @cart m hm hwrites a d =>
    rw [hm] at mapper ntram
    exact ⟨Mapper.write_inv a d mapper, oam, (m.ntramSizeOf_write a d).symm ▸ ntram, palette⟩
  | oam harray => exact ⟨mapper, harray oam, ntram, palette⟩
  | @ntram m hm a d =>
    refine ⟨mapper, oam, Memory.array_set ?_ d ntram, palette⟩
    rw [hm]
    exact ntIndex_lt a m.mirroring
  | palette a d => exact ⟨mapper, oam, ntram, Memory.array_set (palIndex_lt a) d palette⟩

/-- The factory builds a sound mapper, and cuts nametable RAM to its topology's size. -/
theorem exec_mapFactory_stores_inv {id : Byte} {s t : State} (h : exec (.mapFactory id) s = .next t)
    (hstores : s.stores.Inv) (hcart : s.cartridge.inv = true) : t.stores.Inv := by
  obtain ⟨mapper, oam, ntram, palette⟩ := hstores
  by_cases hvalid : s.cartridge.validates = true
  · cases hregs : regsOf id with
    | none =>
      rw [exec_mapFactory_of_unsupported hvalid hregs] at h
      cases h
      exact ⟨mapper, oam, ntram, palette⟩
    | some regs =>
      rw [exec_mapFactory_of_ok hvalid hregs] at h
      cases h
      have hcut := Memory.array_truncate (n := ntramSizeOf (some (s.cartridge.construct regs)))
        (Bool.and_eq_true_iff.1 ntram).1
      exact ⟨Metadata.construct_inv hcart hvalid hregs, oam, hcut, palette⟩
  · rw [exec_mapFactory_of_invalid (Bool.eq_false_iff.2 hvalid)] at h
    cases h
    exact ⟨mapper, oam, ntram, palette⟩

theorem exec_stores_inv {i : Instr} {s t : State} (h : exec i s = .next t) (hstores : s.stores.Inv)
    (hcart : s.cartridge.inv = true) : t.stores.Inv := by
  by_cases factory : ∃ id, i = .mapFactory id
  · obtain ⟨id, rfl⟩ := factory
    exact exec_mapFactory_stores_inv h hstores hcart
  · exact (exec_stored (not_exists.1 factory) h).inv hstores

/-! ## The PPU and secondary OAM under a tick (R23, R25, R28) -/

theorem copySprites_array (oam : Memory) {soam : Memory} {n : Nat} {ks : List Nat} (hn : n + ks.length ≤ 8)
    (h : Memory.array 32 soam = true) : Memory.array 32 (copySprites oam soam n ks) = true := by
  induction ks generalizing soam n with
  | nil => exact h
  | cons k ks ih =>
    rw [List.length_cons] at hn
    refine ih (by omega) ?_
    exact Memory.array_set (by omega) _ (Memory.array_set (by omega) _ (Memory.array_set (by omega) _
      (Memory.array_set (by omega) _ h)))

theorem soamCleared_array : Memory.array 32 soamCleared = true := by decide

theorem pixelStep_wf {en : Bool} {line d : Nat} {s : State} (h : Framebuffer.wf s.ppu.framebuffer = true) :
    Framebuffer.wf (pixelStep en line d s).ppu.framebuffer = true := by
  by_cases hout : line < 240 ∧ 1 ≤ d ∧ d ≤ 256
  · obtain ⟨hline, hlo, hhi⟩ := id hout
    rw [pixelStep_framebuffer en s hout]
    exact Framebuffer.wf_set hline (by omega) _ h
  · rwa [pixelStep_of_idle s hout]

/-- What the sprite pipeline writes stays within its bounds. -/
theorem spriteStep_inv {en : Bool} {line d : Nat} {s t : State} (h : spriteStep en line d s = some t)
    (hsoam : Memory.array 32 s.soam = true) (hcount : s.ppu.soamCount ≤ 8) (hunits : s.ppu.unitCount ≤ 8) :
    Memory.array 32 t.soam = true ∧ t.ppu.soamCount ≤ 8 ∧ t.ppu.unitCount ≤ 8 := by
  unfold spriteStep at h
  split_ifs at h
  · cases h; exact ⟨soamCleared_array, hcount, hunits⟩
  · cases h
    rw [evaluateSprites_eq]
    have htaken : 0 + ((foundSprites s).take 8).length ≤ 8 := by rw [List.length_take]; omega
    exact ⟨copySprites_array s.oam htaken hsoam, Nat.min_le_left _ _, hunits⟩
  · obtain ⟨us, -, rfl⟩ := Option.map_eq_some_iff.1 h
    exact ⟨hsoam, hcount, hcount⟩
  · cases h; exact ⟨hsoam, hcount, Nat.zero_le 8⟩
  · cases h; exact ⟨hsoam, hcount, hunits⟩
  · cases h; exact ⟨hsoam, hcount, Nat.zero_le 8⟩
  · cases h; exact ⟨hsoam, hcount, hunits⟩

theorem exec_ppuTick_inv {s t : State} (h : exec .ppuTick s = .next t) (hppu : s.ppu.inv = true)
    (hsoam : Memory.array 32 s.soam = true) : t.ppu.inv = true ∧ Memory.array 32 t.soam = true := by
  obtain ⟨hline, hdot, hcount, hunits, hfb⟩ := Ppu.inv_iff.1 hppu
  obtain ⟨hline', hdot'⟩ := (tickAdvancesPosition s t h).2 hline hdot
  obtain ⟨a, c, steps⟩ := exec_ppuTick_steps.1 h
  have hspr := steps.sprites
  rw [steps.before_sprites] at hspr
  obtain ⟨hsoam', hcount', hunits'⟩ := spriteStep_inv hspr hsoam hcount hunits
  have hfb' : Framebuffer.wf t.ppu.framebuffer = true := by
    rw [steps.framebuffer_eq]
    exact pixelStep_wf (steps.framebuffer_before.symm ▸ hfb)
  have hppu' := steps.after_pixel
  refine ⟨Ppu.inv_iff.2 ⟨hline', hdot', by rw [hppu']; exact hcount', by rw [hppu']; exact hunits', hfb'⟩, ?_⟩
  rw [steps.soam_eq]
  exact hsoam'

theorem exec_ppu_inv {i : Instr} {s t : State} (h : exec i s = .next t) (hppu : s.ppu.inv = true)
    (hsoam : Memory.array 32 s.soam = true) : t.ppu.inv = true ∧ Memory.array 32 t.soam = true := by
  by_cases tick : i = .ppuTick
  · subst tick; exact exec_ppuTick_inv h hppu hsoam
  by_cases power : i = .ppuPowerCycle
  · subst power
    rw [exec_ppuPowerCycle] at h
    cases h
    exact ⟨Ppu.initial_inv, hsoam⟩
  obtain ⟨hline, hdot, hcount, hunits, hfb⟩ := Ppu.inv_iff.1 hppu
  by_cases reset : i = .ppuReset
  · subst reset
    cases h
    exact ⟨Ppu.inv_iff.2 ⟨Nat.succ_pos 261, Nat.succ_pos 340, Nat.zero_le 8, Nat.zero_le 8, hfb⟩, hsoam⟩
  · obtain ⟨-, -, -, -, -, hrest⟩ := outputsAndPosition i s t h
    obtain ⟨hsoam', hppu'⟩ := hrest tick power reset
    rw [hsoam', hppu']
    exact ⟨hppu, hsoam⟩

/-! ## The step -/

/-- An operation leaves what the host handed over. -/
theorem HostInv.exec {i : Instr} {s t : State} (hs : HostInv s) (h : exec i s = .next t) : HostInv t := by
  obtain ⟨cartridge, cpuMem, unmapped, inbox⟩ := hs
  obtain ⟨hcfg, hcart, hcpu, hinbox, -⟩ := outputsAndPosition i s t h
  exact ⟨hcart ▸ cartridge, hcpu ▸ cpuMem, hcfg ▸ unmapped, hinbox ▸ inbox⟩

theorem exec_inv {i : Instr} {s t : State} (h : exec i s = .next t) (hs : s.inv = true) : t.inv = true := by
  obtain ⟨hppu, hstores, hsoam, hhost⟩ := State.inv_iff.1 hs
  obtain ⟨hppu', hsoam'⟩ := exec_ppu_inv h hppu hsoam
  exact State.inv_iff.2 ⟨hppu', exec_stores_inv h hstores hhost.cartridge, hsoam', hhost.exec h⟩

/-- The metadata and the processor memory a transaction carries are sound. -/
theorem HostInv.issue {s : State} {tx : Transaction} {rest : List Transaction} (hs : HostInv s)
    (hinbox : s.inbox = tx :: rest) : HostInv (s.issue tx rest) := by
  obtain ⟨cartridge, cpuMem, unmapped, inbox⟩ := hs
  rw [hinbox, List.all_cons, Bool.and_eq_true] at inbox
  obtain ⟨htx, hrest⟩ := inbox
  obtain ⟨hcart, hcpu⟩ := Bool.and_eq_true_iff.1 htx
  refine ⟨?cartridge, ?cpuMem, unmapped, hrest⟩
  case cartridge =>
    show (tx.cartridge.getD s.cartridge).inv = true
    cases htx : tx.cartridge with
    | none => exact cartridge
    | some md => rw [htx] at hcart; exact hcart
  case cpuMem =>
    show Memory.array 65536 (tx.cpuMem.getD s.cpuMem) = true
    cases htx : tx.cpuMem with
    | none => exact cpuMem
    | some bytes => rw [htx] at hcpu; exact hcpu

/-- Settles O11: a step is one operation, from the state with the transaction's metadata and memory in force. -/
theorem stepKeepsInvariant : Obligations.StepKeepsInvariant := by
  unfold Obligations.StepKeepsInvariant
  intro s t hs hstep
  cases hinbox : s.inbox with
  | nil =>
    rw [stepRunsDecodedInstruction.2 s hinbox] at hstep
    cases hstep
    exact hs
  | cons tx rest =>
    rw [step_of_inbox hinbox] at hstep
    cases hdecode : decode s.slot tx.word with
    | error r => rw [hdecode] at hstep; cases hstep
    | ok i =>
      rw [hdecode] at hstep
      obtain ⟨hppu, hstores, hsoam, hhost⟩ := State.inv_iff.1 hs
      exact exec_inv hstep (State.inv_iff.2 ⟨hppu, hstores, hsoam, hhost.issue hinbox⟩)

end Sys2Proof.Machine
end

section
/-! PROOFS. The data port with the read buffer (41_ppu_registers.md section 4), the host's memory oracle
(60_exceptions.md section 6), five writes of the serial port, and the two source properties of variant 3 (40_mapper.md
sections 5 and 7). -/

namespace Sys2Proof.Machine

/-! ## PPUDATA with the read buffer (R113, R114) -/

theorem busAddr_toNat (v : BitVec 15) : (busAddr v).toNat = v.toNat % 16384 := by
  rw [busAddr_eq_ofNat, BitVec.toNat_ofNat]

theorem busAddr_sub_eq_ofNat {v : BitVec 15} (h : 0x3F00 ≤ v.toNat % 16384) :
    busAddr v - 0x1000#14 = BitVec.ofNat 14 (v.toNat % 16384 - 0x1000) := by
  have haddr := busAddr_toNat v
  apply BitVec.eq_of_toNat_eq
  rw [BitVec.toNat_ofNat]
  bv_omega

/-- Settles O44: the read is its effect on each side of $3F00, and the peek the buffer or the bus byte. -/
theorem dataPortBufferedReadAndPeek : Obligations.DataPortBufferedReadAndPeek := by
  unfold Obligations.DataPortBufferedReadAndPeek
  simp only [← busAddr_eq_ofNat, ← busAddr_toNat]
  refine ⟨fun k s b hbuf ha hbus => ?below, fun k s r b hbuf ha hpal hbus => ?palette, fun k s hbuf ha => ?peekBuffer,
    fun k s b h hbus => ?peekBus⟩
  case below =>
    have heffect := ppudataReadEffect_buffered_below hbuf ha
    rw [hbus, Option.map_some] at heffect
    exact ⟨vInc s.ppu.ctrl s.ppu.v, orNoCartridge_eq_next.2 ⟨_, heffect, rfl⟩, vInc_toNat _ _⟩
  case palette =>
    have hbyte : paletteRead s (busAddr s.ppu.v) = r := Option.some.inj ((busRead_palette s ha).symm.trans hpal)
    have heffect := ppudataReadEffect_buffered_palette hbuf ha
    rw [busAddr_sub_eq_ofNat (busAddr_toNat _ ▸ ha), ← busAddr_toNat, hbus, Option.map_some, hbyte] at heffect
    exact ⟨vInc s.ppu.ctrl s.ppu.v, orNoCartridge_eq_next.2 ⟨_, heffect, rfl⟩, vInc_toNat _ _⟩
  case peekBuffer => exact orNoCartridge_eq_next.2 ⟨_, ppudataPeek_buffered_below hbuf ha, rfl⟩
  case peekBus => exact orNoCartridge_eq_next.2 ⟨b, (ppudataPeek_of_bus h).trans hbus, rfl⟩

/-! ## The memory oracle (R171) -/

/-- Settles O60: below $4020, and with no mapper, the oracle is the list; a mapper's read row is `CartRead`. -/
theorem cpuMemReadAnswers : Obligations.CpuMemReadAnswers := by
  unfold Obligations.CpuMemReadAnswers
  refine fun s a => ⟨fun hlisted b harray hmem => ?listed, fun m hm ha => ?cart⟩
  case listed =>
    have hread : cpuMemRead s a = s.cpuMem.get a.toNat := by
      unfold cpuMemRead
      obtain ha | hm := hlisted
      · rw [if_neg (by omega)]
      · simp only [hm, ite_self]
    rw [hread, Memory.get_of_mem harray hmem]
  case cart =>
    have hread : cpuMemRead s a = m.read s.cfg a := by simp only [cpuMemRead, if_pos ha, hm]
    rw [exec_decodeCartR hm, hread]
    rfl

/-! ## Five writes of the serial port (R82, R83) -/

theorem Mmc1.commit_registers (r : Mmc1) (sel : BitVec 2) (v : BitVec 5) :
    (r.commit sel v).control = (if sel = 0#2 then v else r.control) ∧
    (r.commit sel v).chr0 = (if sel = 1#2 then v else r.chr0) ∧
    (r.commit sel v).chr1 = (if sel = 2#2 then v else r.chr1) ∧
    (r.commit sel v).prg = (if sel = 3#2 then v else r.prg) := by
  obtain rfl | rfl | rfl | rfl : sel = 0#2 ∨ sel = 1#2 ∨ sel = 2#2 ∨ sel = 3#2 := by bv_omega
  · exact ⟨rfl, rfl, rfl, rfl⟩
  · exact ⟨rfl, rfl, rfl, rfl⟩
  · exact ⟨rfl, rfl, rfl, rfl⟩
  · exact ⟨rfl, rfl, rfl, rfl⟩

/-- The state after a write of the port that leaves the registers `r`. -/
def afterPort (s : State) (m : Mapper) (r : Mmc1) : State := (s.setMapper (some (m.setMmc1 r))).setReply .none

theorem exec_serialPort_afterPort (s : State) (m : Mapper) (r : Mmc1) (sel : BitVec 2) (o : BitVec 13) (d : Byte) :
    exec (serialPort sel o d) (afterPort s m r) = .next (afterPort s m (r.serialWrite sel d)) :=
  exec_serialPort (s := afterPort s m r) (m := m.setMmc1 r) rfl rfl sel o d

/-- Settles O56: four writes shift and the fifth commits; each is the one write of `exec_serialPort`. -/
theorem fiveWritesLoadRegister : Obligations.FiveWritesLoadRegister := by
  unfold Obligations.FiveWritesLoadRegister
  intro s m r q₁ q₂ q₃ q₄ sel o₁ o₂ o₃ o₄ o₅ d₁ d₂ d₃ d₄ d₅ hm hr hcount hdata
  simp only [List.forall_mem_cons] at hdata
  obtain ⟨hd₁, hd₂, hd₃, hd₄, hd₅, -⟩ := hdata
  have hexec : execAll [serialPort q₁ o₁ d₁, serialPort q₂ o₂ d₂, serialPort q₃ o₃ d₃, serialPort q₄ o₄ d₄,
      serialPort sel o₅ d₅] s = .next (afterPort s m (((((r.serialWrite q₁ d₁).serialWrite q₂ d₂).serialWrite q₃
        d₃).serialWrite q₄ d₄).serialWrite sel d₅)) := by
    have hfirst : exec (serialPort q₁ o₁ d₁) s = .next (afterPort s m (r.serialWrite q₁ d₁)) :=
      exec_serialPort hm hr q₁ o₁ d₁
    simp only [execAll, hfirst, exec_serialPort_afterPort]
  rw [Mmc1.serialWrite_of_shift q₁ hd₁ (by simp [hcount]), Mmc1.serialWrite_of_shift q₂ hd₂ (by simp [hcount]),
    Mmc1.serialWrite_of_shift q₃ hd₃ (by simp [hcount]), Mmc1.serialWrite_of_shift q₄ hd₄ (by simp [hcount]),
    Mmc1.serialWrite_of_fifth sel hd₅ (by simp [hcount])] at hexec
  refine ⟨_, _, hexec, ?bits, rfl, rfl, (Mmc1.commit_frame _ _ _).2.2, Mmc1.commit_registers _ _ _⟩
  -- Each shift moves the register down by one bit, so nothing of the old one is left after five.
  simp only [Mmc1.shiftIn_toNat]
  omega

/-! ## Variant 3 (R92 to R95) -/

section cnrom
variable {s : State} {m : Mapper} {bank : Byte} (hm : s.mapper = some m) (hr : m.regs = .cnrom bank)
include hm hr

theorem busAnswer_cnrom (p : BitVec 13) :
    exec (.pbusPtR p) s =
      answer s (m.chr.get (bank.toNat % (max m.chrSize 8192 / 8192) * 8192 + p.toNat)) := by
  have hread : m.read s.cfg (chrAddr p) = m.chrRead (m.cnromChrOff bank (chrAddr p)) := by
    have hlow : (chrAddr p).toNat < 0x2000 := by rw [chrAddr_toNat]; omega
    rw [Mapper.read, hr]
    exact if_pos hlow
  show busAnswer s (ptBusAddr p) = _
  rw [busAnswer_pattern hm, hread, Mapper.cnromChrOff_chrAddr]
  rfl

theorem exec_cnromPrgR (o : BitVec 15) :
    exec (.cnromPrgR o) s = .next { s with reply := .byte (m.cnromPrgRead s.cfg (prgAddr o)) } :=
  withCnrom_of_regs hm hr _

/-- Control writes change the bank register alone. -/
theorem execAll_cnromWBank {writes : List Instr} (hwrites : ∀ i ∈ writes, ∃ a d, i = .cnromWBank a d) :
    ∃ t bank', execAll writes s = .next t ∧ t.mapper = some { m with regs := .cnrom bank' } ∧ t.cfg = s.cfg := by
  induction writes generalizing s m bank with
  | nil =>
    refine ⟨s, bank, rfl, ?_, rfl⟩
    rw [hm, ← hr]
  | cons i writes ih =>
    obtain ⟨⟨a, d, rfl⟩, hrest⟩ := List.forall_mem_cons.1 hwrites
    have hexec := (cnromRows s m bank hm hr).1 a d
    obtain ⟨t, bank', ht, htm, hcfg⟩ := ih (s := { s with mapper := some { m with regs := .cnrom d }, reply := .none })
      rfl rfl hrest
    exact ⟨t, bank', execAll_cons_eq_next.2 ⟨_, hexec, ht⟩, htm, hcfg⟩

end cnrom

/-- Settles O53: the pattern read shows the bank last written, and the program windows are those of fixed banks, which no
control write changes. -/
theorem cnromSourceProperties : Obligations.CnromSourceProperties := by
  unfold Obligations.CnromSourceProperties
  refine ⟨fun s m bank v o p hm hr => ?pattern, fun writes s m bank o hm hr hwrites => ?program,
    fun s m bank o hm hr hlast => ?lastBank⟩
  case pattern =>
    have hwrite := (cnromRows s m bank hm hr).1 o v
    have hbus := busAnswer_cnrom (s := { s with mapper := some { m with regs := .cnrom v }, reply := .none }) rfl rfl p
    have hcart := (cnromRows { s with mapper := some { m with regs := .cnrom v }, reply := .none } _ v rfl rfl).2.1 p
    exact ⟨_, execAll_cons_eq_next.2 ⟨_, hwrite, execAll_cons_eq_next.2 ⟨_, hbus, rfl⟩⟩, rfl,
      _, execAll_cons_eq_next.2 ⟨_, hwrite, execAll_cons_eq_next.2 ⟨_, hcart, rfl⟩⟩, rfl⟩
  case program =>
    obtain ⟨t, bank', ht, htm, hcfg⟩ := execAll_cnromWBank hm hr hwrites
    have hread := exec_cnromPrgR (s := t) htm rfl o
    rw [hcfg] at hread
    exact ⟨_, t, _, exec_cnromPrgR hm hr o, ht, hread, rfl⟩
  case lastBank =>
    rw [exec_cnromPrgR hm hr, Mapper.cnromPrgRead, Mapper.fixedPrgRead_prgAddr, Mapper.cnromHighSelect, hlast]
    simp only [Nat.self_sub_mod]
    rfl

end Sys2Proof.Machine
end

section
/-! PROOFS. A frame of ticks over zero graphics data (95_test_vectors.md section 1.2): the shifters, the pattern latches and
the sprite units stay 0, so every pixel is the backdrop's. -/

namespace Sys2Proof.Machine

/-! ## A pipeline with no opaque pixel in it -/

/-- The background shifters, the pattern latches and the pattern bytes of the loaded units are 0. -/
structure Blank (p : Ppu) : Prop where
  shiftLo : p.bg.bgShiftLo = 0
  shiftHi : p.bg.bgShiftHi = 0
  latchLo : p.bg.ptLoLatch = 0
  latchHi : p.bg.ptHiLatch = 0
  units : ∀ i u, i < p.unitCount → p.units[i]? = some u → u.lo = 0 ∧ u.hi = 0

theorem Blank.bgPixel {p : Ppu} (h : Blank p) (x : Nat) : (Machine.bgPixel p x).1 = 0#2 := by
  by_cases hhidden : p.mask.getLsbD 3 = false ∨ (x < 8 ∧ p.mask.getLsbD 1 = false)
  · rw [bgPixel_of_hidden hhidden]
  · rw [bgPixel_of_shown hhidden, h.shiftLo, h.shiftHi]
    simp [twoBits]

theorem unitPixel_of_zero {u : SpriteUnit} (h : u.lo = 0 ∧ u.hi = 0) (x : Nat) : unitPixel u x = 0#2 := by
  unfold unitPixel
  rw [h.1, h.2]
  split
  · simp [twoBits]
  · rfl

theorem Blank.sprPixel {p : Ppu} (h : Blank p) (x : Nat) : Machine.sprPixel p x = none := by
  rw [Option.eq_none_iff_forall_ne_some]
  intro q hq
  obtain ⟨-, -, hi, ⟨u, hu, -, -, hopaque⟩, -⟩ := sprPixel_eq_some.1 hq
  exact hopaque (unitPixel_of_zero (h.units _ u hi hu) x)

theorem Blank.pixelAddr {p : Ppu} (h : Blank p) (en : Bool) (x : Nat) : Machine.pixelAddr en p x = backdropAddr := by
  rw [Machine.pixelAddr, h.bgPixel, h.sprPixel]
  exact ite_self _

/-! ## Zero graphics data -/

/-- Every pattern read answers 0. -/
def ZeroPatterns (s : State) : Prop := ∀ a : BusAddr, a.toNat ≤ 0x1FFF → busRead s a = some 0

theorem zeroPatterns_of_cnrom {s : State} {m : Mapper} {bank : Byte} (hm : s.mapper = some m)
    (hr : m.regs = .cnrom bank) (hchr : m.chr = []) : ZeroPatterns s := by
  intro a ha
  have hlow : (a.setWidth 16).toNat < 0x2000 := by rw [BitVec.toNat_setWidth]; omega
  rw [busRead_pattern hm ha, Mapper.read, hr]
  simp only [Mapper.cnromRead, if_pos hlow, Mapper.chrRead, hchr]
  rfl

theorem shifterNext_zero (d : Nat) : shifterNext d 0 0 = 0 := by
  unfold shifterNext
  cases shiftDot d <;> cases reloadDot d <;> rfl

/-- The background of a blank pipeline stays blank. -/
theorem TickSteps.blank_background {s a c t : State} (h : TickSteps s a c t) (hzero : ZeroPatterns s)
    (hblank : Blank s.ppu) :
    t.ppu.bg.bgShiftLo = 0 ∧ t.ppu.bg.bgShiftHi = 0 ∧ t.ppu.bg.ptLoLatch = 0 ∧ t.ppu.bg.ptHiLatch = 0 := by
  obtain ⟨shiftLo, shiftHi, latchLo, latchHi, -⟩ := hblank
  obtain ⟨hsame, -⟩ | ⟨hline, hen⟩ := h.background_writes
  · rw [hsame]
    exact ⟨shiftLo, shiftHi, latchLo, latchHi⟩
  have hstep := h.bgStep_eq (renderingEnabled_eq_true.1 hen) hline
  obtain ⟨-, -, hfetchLo, hfetchHi⟩ := bgStep_fetches hstep
  obtain ⟨-, -, hlo, hhi⟩ := h.latches
  have hshift := bgStep_shifters hstep
  unfold Background.SameShifters at hshift
  rw [shiftAndReload_bg, flagEvents_bg, shiftLo, shiftHi, latchLo, latchHi, shifterNext_zero] at hshift
  have hnumber := patternNumber_high s.ppu
  have hreadLo := hzero (ptAddr s) (by rw [ptAddr_toNat]; omega)
  have hreadHi := hzero (ptAddr s + 8#14) (by rw [ptAddr_high_toNat]; omega)
  rw [flagEvents_busRead, flagEvents_ptAddr, ← h.bg_eq, hreadLo] at hfetchLo
  rw [flagEvents_busRead, flagEvents_ptAddr, ← h.bg_eq, hreadHi] at hfetchHi
  refine ⟨by rw [h.bg_eq, hshift], by rw [h.bg_eq, hshift], ?latchLo, ?latchHi⟩
  case latchLo => exact hlo.elim (fun hkept => hkept.trans latchLo) fun hd => (Option.some.inj (hfetchLo hd)).symm
  case latchHi => exact hhi.elim (fun hkept => hkept.trans latchHi) fun hd => (Option.some.inj (hfetchHi hd)).symm

/-- A unit's two pattern bytes are read below $2000. -/
theorem spriteFetchAddr_le (ctrl tile : Byte) {row : Nat} (hrow : row < spriteHeight ctrl) :
    (spriteFetchAddr ctrl tile row).toNat + 8 ≤ 0x1FFF := by
  rw [spriteFetchAddr_eq_ofNat ctrl tile hrow, BitVec.toNat_ofNat]
  have hheight : spriteHeight ctrl = 8 ∨ spriteHeight ctrl = 16 := by
    unfold spriteHeight
    split
    · exact .inr rfl
    · exact .inl rfl
  refine (Nat.add_le_add_right (Nat.mod_le _ _) 8).trans ?_
  split
  · split <;> omega
  · have hhalf : tile.toNat / 2 ≤ 127 := by omega
    have hlow : tile.toNat % 2 ≤ 1 := by omega
    omega

theorem loadUnit_zero {s : State} {i : Nat} {u : SpriteUnit} (hzero : ZeroPatterns s) (h : loadUnit s i = some u) :
    u.lo = 0 ∧ u.hi = 0 := by
  obtain ⟨-, -, hlo, hhi⟩ := loadUnit_eq_some h
  have haddr : (unitFetchAddr s i).toNat + 8 ≤ 0x1FFF := spriteFetchAddr_le _ _ (spriteRow_lt _ _ _ _)
  rw [hzero _ (by omega)] at hlo
  rw [hzero _ (by rw [BitVec.toNat_add, BitVec.toNat_ofNat]; omega)] at hhi
  exact ⟨(Option.some.inj hlo).symm, (Option.some.inj hhi).symm⟩

/-- What the sprite pipeline loads from zero graphics data has no opaque pixel. -/
theorem spriteStep_blank {en : Bool} {line d : Nat} {s t : State} (h : spriteStep en line d s = some t)
    (hzero : ZeroPatterns s) (hunits : ∀ i u, i < s.ppu.unitCount → s.ppu.units[i]? = some u → u.lo = 0 ∧ u.hi = 0) :
    ∀ i u, i < t.ppu.unitCount → t.ppu.units[i]? = some u → u.lo = 0 ∧ u.hi = 0 := by
  unfold spriteStep at h
  split_ifs at h
  · cases h; exact hunits
  · cases h; exact hunits
  · obtain ⟨us, hus, rfl⟩ := Option.map_eq_some_iff.1 h
    intro i u hi hu
    change us[i]? = some u at hu
    obtain ⟨hlt, -⟩ := Vector.getElem?_eq_some_iff.1 hu
    obtain ⟨v, hv, hiv⟩ := (loadUnits_getElem? hus i).2 (List.mem_range.2 hi) hlt
    obtain rfl : v = u := Option.some.inj (hiv.symm.trans hu)
    exact loadUnit_zero hzero hv
  · cases h; exact fun i u hi => absurd hi (Nat.not_lt_zero i)
  · cases h; exact hunits
  · cases h; exact fun i u hi => absurd hi (Nat.not_lt_zero i)
  · cases h; exact hunits

theorem TickSteps.blank {s a c t : State} (h : TickSteps s a c t) (hzero : ZeroPatterns s) (hblank : Blank s.ppu) :
    Blank t.ppu := by
  obtain ⟨shiftLo, shiftHi, latchLo, latchHi⟩ := h.blank_background hzero hblank
  have hspr := h.sprites
  rw [h.before_sprites] at hspr
  have hunits := spriteStep_blank hspr (fun a ha => (busRead_congr rfl rfl rfl rfl a).trans (hzero a ha)) hblank.units
  refine ⟨shiftLo, shiftHi, latchLo, latchHi, ?_⟩
  rw [h.after_pixel]
  exact hunits

/-! ## The frame -/

/-- The pixels of the dots before dot `k` are the backdrop's. -/
def SolidUpTo (s : State) (k : Nat) (u : State) : Prop :=
  ∀ y x, y < 240 → x < 256 → y * 341 + x + 1 < k →
    Framebuffer.get u.ppu.framebuffer y x = colourOut s.ppu.mask (s.palette.get 0)

theorem TickSteps.solidUpTo {s u a c v : State} {k : Nat} (h : TickSteps u a c v) (hsetting : SameSetting s u)
    (hindex : dotIndex u.ppu = k) (hframe : u.ppu.InFrame) (hblank : Blank v.ppu) (hsolid : SolidUpTo s k u) :
    SolidUpTo s (k + 1) v := by
  intro y x hy hx hk
  rw [h.framebuffer_eq]
  obtain ⟨-, hdot⟩ := hframe
  unfold dotIndex at hindex
  by_cases hout : u.ppu.scanline < 240 ∧ 1 ≤ u.ppu.dot ∧ u.ppu.dot ≤ 256
  · rw [pixelStep_framebuffer _ a hout, h.framebuffer_before]
    by_cases hpixel : (y, x) = (u.ppu.scanline, u.ppu.dot - 1)
    · obtain ⟨rfl, rfl⟩ := Prod.mk.inj hpixel
      rw [Framebuffer.get_set_same, h.pixelAddr_eq (by omega), hblank.pixelAddr, h.mask_before, h.palette_before,
        hsetting.mask, hsetting.palette]
      rfl
    · rw [Framebuffer.get_set_other _ hpixel]
      refine hsolid y x hy hx ?_
      rw [Prod.mk.injEq] at hpixel
      omega
  · rw [pixelStep_of_idle a hout, h.framebuffer_before]
    exact hsolid y x hy hx (by omega)

/-- `k` ticks after the start of a frame, over zero graphics data. -/
structure SolidAfter (s : State) (k : Nat) (u : State) : Prop where
  frame : FrameAfter s k u
  blank : Blank u.ppu
  solid : SolidUpTo s k u

/-- Settles O34: nothing opaque comes into the pipeline, so each dot stores the backdrop; the last pixel's dot is long
before the end of the frame. -/
theorem solidFrame : Obligations.SolidFrame := by
  unfold Obligations.SolidFrame
  intro s m bank hm hr hchr hline hdot hshiftLo hshiftHi hlatchLo hlatchHi hcount
  have tick {k : Nat} {u : State} (hu : SolidAfter s k u) :
      ∃ v a c, exec .ppuTick u = .next v ∧ TickSteps u a c v ∧ Blank v.ppu ∧ SolidUpTo s (k + 1) v := by
    have hum : u.mapper = some m := hu.frame.setting.mapper.trans hm
    obtain ⟨v, hv⟩ := exec_ppuTick_of_mapper (s := u) (by rw [hum]; rfl)
    obtain ⟨a, c, steps⟩ := exec_ppuTick_steps.1 hv
    have hblank := steps.blank (zeroPatterns_of_cnrom hum hr hchr) hu.blank
    exact ⟨v, a, c, hv, steps, hblank, steps.solidUpTo hu.frame.setting hu.frame.index hu.frame.inFrame hblank hu.solid⟩
  have start : SolidAfter s 0 s :=
    ⟨.start hline hdot, ⟨hshiftLo, hshiftHi, hlatchLo, hlatchHi, by rw [hcount]; omega⟩, by unfold SolidUpTo; omega⟩
  obtain ⟨u, hu, hafter⟩ : ∃ u, ticks 89340 s = .next u ∧ SolidAfter s 89340 u := by
    refine ticks_reach start fun k u hk hu => ?_
    obtain ⟨v, a, c, hv, steps, hblank, hsolid⟩ := tick hu
    exact ⟨v, hv, hu.frame.tick hk hv, hblank, hsolid⟩
  obtain ⟨t, a, c, ht, steps, hblank, hsolid⟩ := tick hafter
  refine ⟨t, ticks_succ_eq_next.2 ⟨u, hu, ht⟩, fun y x hy hx => ?_⟩
  rw [hsolid y x hy hx (by omega), colourOut_toNat]

end Sys2Proof.Machine
end
